-- ==== Sys2Proof/Word.lean ====
section
/-!
DEFINITION. The word types of the machine (R7, R9): nibbles, bytes, 12-bit addresses, 16-bit words and the 64-bit rows of
the framebuffer. All values are unsigned; the machine has no signed operation (R9).
-/

namespace Sys2Proof

/-- Four bits: an instruction field, a register number (R12, R22), a key code (R35), the stack pointer (R26). -/
abbrev Nibble := BitVec 4

/-- Eight bits: a memory cell, a general register, a timer. -/
abbrev Byte := BitVec 8

/-- Twelve bits: the immediate `aaa` (R93). -/
abbrev Imm12 := BitVec 12

/-- Sixteen bits: an instruction word, PC, I, a return address. -/
abbrev Word := BitVec 16

/-- One row of the framebuffer: 64 pixels, column `c` at bit `63 - c` (R33). -/
abbrev PixelRow := BitVec 64

/-- A general register's number, 0 to 15 (R22). -/
abbrev Reg := Nibble

end Sys2Proof
end

