-- ==== Sys2Proof/Syntax.lean ====
section
/-!
DEFINITION. The instructions as syntax: one constructor per row of R96, in the table's order, with the fields the
encoding carries (R93). Ignored fields (aaa of SYS, y of SHR and SHL, R98) are carried.
-/

namespace Sys2Proof

inductive Instr where
  /-- 00E0 CLS (R215). -/
  | cls
  /-- 00EE RET (R143). -/
  | ret
  /-- 0nnn SYS aaa, aaa ignored (R128). -/
  | sys (aaa : Imm12)
  /-- 1aaa JP aaa (R141). -/
  | jp (aaa : Imm12)
  /-- 2aaa CALL aaa (R142). -/
  | call (aaa : Imm12)
  /-- 3xkk SE Vx,kk (R145). -/
  | seImm (x : Reg) (kk : Byte)
  /-- 4xkk SNE Vx,kk (R146). -/
  | sneImm (x : Reg) (kk : Byte)
  /-- 5xy0 SE Vx,Vy (R147). -/
  | seReg (x y : Reg)
  /-- 6xkk LD Vx,kk (R162). -/
  | ldImm (x : Reg) (kk : Byte)
  /-- 7xkk ADD Vx,kk (R163). -/
  | addImm (x : Reg) (kk : Byte)
  /-- 8xy0 LD Vx,Vy (R164). -/
  | ldReg (x y : Reg)
  /-- 8xy1 OR Vx,Vy (R165). -/
  | orReg (x y : Reg)
  /-- 8xy2 AND Vx,Vy (R166). -/
  | andReg (x y : Reg)
  /-- 8xy3 XOR Vx,Vy (R167). -/
  | xorReg (x y : Reg)
  /-- 8xy4 ADD Vx,Vy (R168). -/
  | addReg (x y : Reg)
  /-- 8xy5 SUB Vx,Vy (R169). -/
  | subReg (x y : Reg)
  /-- 8xy6 SHR Vx, y ignored (R170). -/
  | shr (x y : Reg)
  /-- 8xy7 SUBN Vx,Vy (R171). -/
  | subn (x y : Reg)
  /-- 8xyE SHL Vx, y ignored (R172). -/
  | shl (x y : Reg)
  /-- 9xy0 SNE Vx,Vy (R148). -/
  | sneReg (x y : Reg)
  /-- Aaaa LD I,aaa (R191). -/
  | ldI (aaa : Imm12)
  /-- Baaa JP V0,aaa (R144). -/
  | jpV0 (aaa : Imm12)
  /-- Cxkk RND Vx,kk (R173). -/
  | rnd (x : Reg) (kk : Byte)
  /-- Dxyn DRW Vx,Vy,n (R216). -/
  | drw (x y : Reg) (n : Nibble)
  /-- Ex9E SKP Vx (R235). -/
  | skp (x : Reg)
  /-- ExA1 SKNP Vx (R236). -/
  | sknp (x : Reg)
  /-- Fx07 LD Vx,DT (R241). -/
  | ldVxDt (x : Reg)
  /-- Fx0A LD Vx,K (R237). -/
  | ldVxK (x : Reg)
  /-- Fx15 LD DT,Vx (R242). -/
  | ldDtVx (x : Reg)
  /-- Fx18 LD ST,Vx (R243). -/
  | ldStVx (x : Reg)
  /-- Fx1E ADD I,Vx (R192). -/
  | addI (x : Reg)
  /-- Fx29 LD F,Vx (R193). -/
  | ldF (x : Reg)
  /-- Fx33 LD B,Vx (R197). -/
  | ldB (x : Reg)
  /-- Fx55 LD [I],Vx (R198). -/
  | ldMemVx (x : Reg)
  /-- Fx65 LD Vx,[I] (R199). -/
  | ldVxMem (x : Reg)
  deriving DecidableEq, Repr

end Sys2Proof
end

