-- ==== Sys2Proof/WellFormed.lean ====
section
/-!
DEFINITION. Which terms of `Instr` stand for an instruction. Every field has exactly the width its encoding gives it, so
the one thing a term can get wrong is a SYS whose word is another row's: 0x00E0 is CLS and 0x00EE is RET (R94, R98).
-/

namespace Sys2Proof

/-- Well-formed instructions. -/
def wellFormed : Instr → Bool
  | .sys aaa => aaa != 0x0E0 && aaa != 0x0EE
  | _ => true

end Sys2Proof
end

