-- ==== Sys2Proof/Decode.lean ====
section
/-!
DEFINITION. From bytes to instructions and back: the fields of R91 and R93, the opcode table of R96 row for row, decoding by
the first matching row (R94), rejection by name of the words of R97, and the encoder.
-/

namespace Sys2Proof

/-! ## Words and bytes -/

/-- The instruction word of two bytes, first byte high (R62, R90). -/
def wordOfBytes (hi lo : Byte) : Word := hi ++ lo

/-- The bytes of a word as memory holds them, high byte first (R62). -/
def bytesOfWord (w : Word) : List Byte := [w.extractLsb' 8 8, w.extractLsb' 0 8]

/-! ## Fields (R12, R91, R93) -/

/-- `op = W[15:12]`. -/
def opField (w : Word) : Nibble := w.extractLsb' 12 4
/-- `x = W[11:8]`. -/
def xField (w : Word) : Reg := w.extractLsb' 8 4
/-- `y = W[7:4]`. -/
def yField (w : Word) : Reg := w.extractLsb' 4 4
/-- `n = W[3:0]`. -/
def nField (w : Word) : Nibble := w.extractLsb' 0 4
/-- `kk = W[7:0]`. -/
def kkField (w : Word) : Byte := w.extractLsb' 0 8
/-- `aaa = W[11:0]`. -/
def aaaField (w : Word) : Imm12 := w.extractLsb' 0 12

/-! ## The opcode table (R96) -/

/-- One row of R96: `mask`, `pattern` (the column "match") and the instruction read from a word that matches. -/
structure OpcodeRow where
  mask : Word
  pattern : Word
  build : Word → Instr

/-- A word matches a row when `(W & mask) == match` (R94). -/
def rowMatches (w : Word) (r : OpcodeRow) : Bool := w &&& r.mask == r.pattern

/-- Format Z and A of opcode 0, and the jumps: rows 1 to 5 of R96. -/
def rowsControl : List OpcodeRow := [
  ⟨0xFFFF, 0x00E0, fun _ => .cls⟩,
  ⟨0xFFFF, 0x00EE, fun _ => .ret⟩,
  ⟨0xF000, 0x0000, fun w => .sys (aaaField w)⟩,
  ⟨0xF000, 0x1000, fun w => .jp (aaaField w)⟩,
  ⟨0xF000, 0x2000, fun w => .call (aaaField w)⟩]

/-- Rows 6 to 10 of R96. -/
def rowsImmediate : List OpcodeRow := [
  ⟨0xF000, 0x3000, fun w => .seImm (xField w) (kkField w)⟩,
  ⟨0xF000, 0x4000, fun w => .sneImm (xField w) (kkField w)⟩,
  ⟨0xF00F, 0x5000, fun w => .seReg (xField w) (yField w)⟩,
  ⟨0xF000, 0x6000, fun w => .ldImm (xField w) (kkField w)⟩,
  ⟨0xF000, 0x7000, fun w => .addImm (xField w) (kkField w)⟩]

/-- Rows 11 to 19 of R96: the nine ALU functions of opcode 8. The function nibbles 5, 6, 7 are PRESUMED (G3, D8), unsafe;
log 18. -/
def rowsAlu : List OpcodeRow := [
  ⟨0xF00F, 0x8000, fun w => .ldReg (xField w) (yField w)⟩,
  ⟨0xF00F, 0x8001, fun w => .orReg (xField w) (yField w)⟩,
  ⟨0xF00F, 0x8002, fun w => .andReg (xField w) (yField w)⟩,
  ⟨0xF00F, 0x8003, fun w => .xorReg (xField w) (yField w)⟩,
  ⟨0xF00F, 0x8004, fun w => .addReg (xField w) (yField w)⟩,
  ⟨0xF00F, 0x8005, fun w => .subReg (xField w) (yField w)⟩,
  ⟨0xF00F, 0x8006, fun w => .shr (xField w) (yField w)⟩,
  ⟨0xF00F, 0x8007, fun w => .subn (xField w) (yField w)⟩,
  ⟨0xF00F, 0x800E, fun w => .shl (xField w) (yField w)⟩]

/-- Rows 20 to 26 of R96. -/
def rowsMiddle : List OpcodeRow := [
  ⟨0xF00F, 0x9000, fun w => .sneReg (xField w) (yField w)⟩,
  ⟨0xF000, 0xA000, fun w => .ldI (aaaField w)⟩,
  ⟨0xF000, 0xB000, fun w => .jpV0 (aaaField w)⟩,
  ⟨0xF000, 0xC000, fun w => .rnd (xField w) (kkField w)⟩,
  ⟨0xF000, 0xD000, fun w => .drw (xField w) (yField w) (nField w)⟩,
  ⟨0xF0FF, 0xE09E, fun w => .skp (xField w)⟩,
  ⟨0xF0FF, 0xE0A1, fun w => .sknp (xField w)⟩]

/-- Rows 27 to 35 of R96. -/
def rowsMisc : List OpcodeRow := [
  ⟨0xF0FF, 0xF007, fun w => .ldVxDt (xField w)⟩,
  ⟨0xF0FF, 0xF00A, fun w => .ldVxK (xField w)⟩,
  ⟨0xF0FF, 0xF015, fun w => .ldDtVx (xField w)⟩,
  ⟨0xF0FF, 0xF018, fun w => .ldStVx (xField w)⟩,
  ⟨0xF0FF, 0xF01E, fun w => .addI (xField w)⟩,
  ⟨0xF0FF, 0xF029, fun w => .ldF (xField w)⟩,
  ⟨0xF0FF, 0xF033, fun w => .ldB (xField w)⟩,
  ⟨0xF0FF, 0xF055, fun w => .ldMemVx (xField w)⟩,
  ⟨0xF0FF, 0xF065, fun w => .ldVxMem (xField w)⟩]

/-- The 35 rows of R96, in its order. -/
def opcodeRows : List OpcodeRow := rowsControl ++ rowsImmediate ++ rowsAlu ++ rowsMiddle ++ rowsMisc

/-! ## Decoding (R94, R97) -/

/-- Why bytes are no instruction: one name per line of the table of R97, and bytes that end before the word does. -/
inductive DecodeError where
  /-- 5xyN with N not 0. -/
  | illegalSeReg
  /-- 8xyN with N not one of the nine functions. -/
  | illegalAlu
  /-- 9xyN with N not 0. -/
  | illegalSneReg
  /-- Exkk with kk neither 9E nor A1. -/
  | illegalKey
  /-- Fxkk with kk none of the nine listed. -/
  | illegalMisc
  /-- Fewer than two bytes. -/
  | tooShort
  deriving DecidableEq, Repr

/-- The line of R97 an illegal word stands on, told by its leading nibble. -/
def illegalFamily (w : Word) : DecodeError :=
  if opField w = 0x5 then .illegalSeReg
  else if opField w = 0x8 then .illegalAlu
  else if opField w = 0x9 then .illegalSneReg
  else if opField w = 0xE then .illegalKey
  else .illegalMisc

/-- Decoding of an instruction word: the first row of R96 that matches (R94); a function of the word alone (R123). -/
def decodeWord (w : Word) : Except DecodeError Instr :=
  match opcodeRows.find? (rowMatches w) with
  | some r => .ok (r.build w)
  | none => .error (illegalFamily w)

/-- Decoding of a byte stream: the instruction at its head and the bytes after it. Every instruction is two bytes (R90). -/
def decodeBytes : List Byte → Except DecodeError (Instr × List Byte)
  | hi :: lo :: rest =>
    match decodeWord (wordOfBytes hi lo) with
    | .ok i => .ok (i, rest)
    | .error e => .error e
  | _ => .error .tooShort

/-! ## Encoding (R92, R96) -/

/-- Format A: op, aaa. -/
def encodeA (op : Nibble) (aaa : Imm12) : Word := op ++ aaa
/-- Format K and X: op, x, kk (or the function byte). -/
def encodeK (op : Nibble) (x : Reg) (kk : Byte) : Word := op ++ (x ++ kk : BitVec 12)
/-- Format R and D: op, x, y, n (or the function nibble). -/
def encodeR (op : Nibble) (x y : Reg) (n : Nibble) : Word := op ++ (x ++ (y ++ n : Byte) : BitVec 12)

/-- The instruction word of an instruction (R92, R96). -/
def encode : Instr → Word
  | .cls => 0x00E0
  | .ret => 0x00EE
  | .sys aaa => encodeA 0x0 aaa
  | .jp aaa => encodeA 0x1 aaa
  | .call aaa => encodeA 0x2 aaa
  | .seImm x kk => encodeK 0x3 x kk
  | .sneImm x kk => encodeK 0x4 x kk
  | .seReg x y => encodeR 0x5 x y 0x0
  | .ldImm x kk => encodeK 0x6 x kk
  | .addImm x kk => encodeK 0x7 x kk
  | .ldReg x y => encodeR 0x8 x y 0x0
  | .orReg x y => encodeR 0x8 x y 0x1
  | .andReg x y => encodeR 0x8 x y 0x2
  | .xorReg x y => encodeR 0x8 x y 0x3
  | .addReg x y => encodeR 0x8 x y 0x4
  | .subReg x y => encodeR 0x8 x y 0x5
  | .shr x y => encodeR 0x8 x y 0x6
  | .subn x y => encodeR 0x8 x y 0x7
  | .shl x y => encodeR 0x8 x y 0xE
  | .sneReg x y => encodeR 0x9 x y 0x0
  | .ldI aaa => encodeA 0xA aaa
  | .jpV0 aaa => encodeA 0xB aaa
  | .rnd x kk => encodeK 0xC x kk
  | .drw x y n => encodeR 0xD x y n
  | .skp x => encodeK 0xE x 0x9E
  | .sknp x => encodeK 0xE x 0xA1
  | .ldVxDt x => encodeK 0xF x 0x07
  | .ldVxK x => encodeK 0xF x 0x0A
  | .ldDtVx x => encodeK 0xF x 0x15
  | .ldStVx x => encodeK 0xF x 0x18
  | .addI x => encodeK 0xF x 0x1E
  | .ldF x => encodeK 0xF x 0x29
  | .ldB x => encodeK 0xF x 0x33
  | .ldMemVx x => encodeK 0xF x 0x55
  | .ldVxMem x => encodeK 0xF x 0x65

/-- The bytes of an instruction, as memory holds them. -/
def encodeBytes (i : Instr) : List Byte := bytesOfWord (encode i)

/-! ## The opcode table's numbering -/

/-- The word whose bits `nbits - 1` to 0 are `w` as `spec/opcode_table.json` numbers them and whose other bits are 0. -/
def tableWord (nbits w : Nat) : Word := BitVec.ofNat 16 (w % 2 ^ nbits)

/-- What the decoder reads from the instruction whose bits are `w`, its bytes laid out as memory holds them (R62). -/
def decodeTableWord (nbits w : Nat) : Option Instr :=
  match decodeBytes (bytesOfWord (tableWord nbits w)) with
  | .ok (i, _) => some i
  | .error _ => none

end Sys2Proof
end

