-- ==== Sys2Proof/Config.lean ====
section
/-!
DEFINITION. What is fixed for a run: the sizes of R7, the parameters of R8 with the defaults the spec takes, and the free
value of the random byte.
-/

namespace Sys2Proof

/-- MEM_SIZE (R7): addresses 0x000 to 0xFFF. -/
abbrev Config.memSize : Nat := 4096

/-- PROG_BASE (R7): where `load` puts the image and where execution starts. -/
abbrev Config.progBase : Nat := 0x200

/-- PROG_MAX (R7): the longest image `load` accepts. -/
abbrev Config.progMax : Nat := 3584

/-- FB_ROWS (R7). -/
abbrev Config.fbRows : Nat := 32

/-- FB_COLS (R7). -/
abbrev Config.fbCols : Nat := 64

/-- Eighty bytes of font (R31): glyph `g` at `5 g`. -/
abbrev Font := Vector Byte 80

/-- The two values of the parameter VF_ORDER (R8, R161): which of the two writes of a flag-writing ALU instruction comes
first. -/
inductive VfOrder where
  | flagThenResult
  | resultThenFlag
  deriving DecidableEq, Repr

/-- The parameters of R8 that the core takes as arguments, fixed for a run (R21). They stand in the state, where every
operation finds them and no step writes them; log 26. A statement about every state is a statement about every value of
them. Of the other two of R8, `rnd` is `Config.rnd` and KEYMAP is outside the core (R5). -/
structure Params where
  /-- FONT (R31, U7): the bytes 0x000 to 0x04F of memory at reset. The source fixes bytes 50 to 54 only (`Font.hasGlyphA`). -/
  font : Font
  /-- UQ_CAP (R35, U8): the capacity of the unprocessed queue, `none` for unbounded. -/
  uqCap : Option Nat
  /-- VF_ORDER (R161, U5). -/
  vfOrder : VfOrder
  deriving DecidableEq, Repr

/-- The source's constraint on FONT (R8): glyph A, bytes 50 to 54, is F0 90 F0 90 90. -/
def Font.hasGlyphA (font : Font) : Bool :=
  font[50] == 0xF0 && font[51] == 0x90 && font[52] == 0xF0 && font[53] == 0x90 && font[54] == 0x90

/-- Glyphs 0 to 7 of the default FONT (R31). PRESUMED (G1, D7), unsafe: the spec's default table from general
knowledge; log 5. -/
def Config.fontLow : List Byte :=
  [0xF0, 0x90, 0x90, 0x90, 0xF0] ++ [0x20, 0x60, 0x20, 0x20, 0x70] ++
  [0xF0, 0x10, 0xF0, 0x80, 0xF0] ++ [0xF0, 0x10, 0xF0, 0x10, 0xF0] ++
  [0x90, 0x90, 0xF0, 0x10, 0x10] ++ [0xF0, 0x80, 0xF0, 0x10, 0xF0] ++
  [0xF0, 0x80, 0xF0, 0x90, 0xF0] ++ [0xF0, 0x10, 0x20, 0x40, 0x40]

/-- Glyphs 8 to F of the default FONT (R31). Glyph A is the source's own (bytes 50 to 54 of the table); the others are
PRESUMED (G1, D7), unsafe; log 5. -/
def Config.fontHigh : List Byte :=
  [0xF0, 0x90, 0xF0, 0x90, 0xF0] ++ [0xF0, 0x90, 0xF0, 0x10, 0xF0] ++
  [0xF0, 0x90, 0xF0, 0x90, 0x90] ++ [0xE0, 0x90, 0xE0, 0x90, 0xE0] ++
  [0xF0, 0x80, 0x80, 0x80, 0xF0] ++ [0xE0, 0x90, 0x90, 0x90, 0xE0] ++
  [0xF0, 0x80, 0xF0, 0x80, 0xF0] ++ [0xF0, 0x80, 0xF0, 0x80, 0x80]

/-- The default FONT (R8, R31). -/
def Config.defaultFont : Font := ⟨(Config.fontLow ++ Config.fontHigh).toArray, rfl⟩

/-- The parameters at the defaults the spec takes (R8): the conventional font (D7, log 5), an unbounded queue (D16, log 6),
the flag written before the result (D5, log 10). PRESUMED and DESIGN CHOICE, unsafe for claims about runs at these values. -/
def Config.defaults : Params where
  font := Config.defaultFont
  uqCap := none
  vfOrder := .flagThenResult

/-- The contents of memory at reset (R40, R70): FONT at 0x000 to 0x04F, zero everywhere else. This is what an address that
the memory list does not name reads as. Zero at 0x050 to 0x1FF is the spec's decision D10; log 7. -/
def Config.resetByte (font : Font) (a : Nat) : Byte := if h : a < 80 then font[a] else 0

/-- The free value of the random byte (R173, U6, D17): the byte that the `k`-th executed Cxkk draws. It has no body, so no
proof can rest on its value. Safe: every value is admitted; log 2. -/
opaque Config.rnd : Nat → Byte

end Sys2Proof
end

