-- ==== Sys2Proof/Machine/State.lean ====
section
/-!
DEFINITION. The state of the machine (R20), its reset value (R40, R290), and the reasons a step can stop. State is plain
data and holds every piece R20 names, the environment's event stream, and the model's own port fields.
-/

namespace Sys2Proof.Machine

/-- The fault causes of R261, recorded in the state's `fault` when a tick raises one (R262). Raising is a NEXT state with
`halted` set: no step of this machine answers `Outcome.fault`. Causes 2, 3 and 4 are the spec's decisions D3 and D4, which
err toward unprovable: safe. -/
inductive Fault where
  /-- Code 1. Raised by dispatch (R124) on a word that matches no row of R96; the word and its address. Safe. -/
  | illegalInstruction (word addr : Word)
  /-- Code 2. Raised by CALL with SP = 15 (R142); the CALL's address. Safe (D4). -/
  | stackOverflow (addr : Word)
  /-- Code 3. Raised by RET with SP = 0 (R143); the RET's address. Safe (D4). -/
  | stackUnderflow (addr : Word)
  /-- Code 4. Raised by a fetch with PC > 0xFFE (R121; the PC) and by Dxyn, Fx33, Fx55, Fx65 with an effective address above
  0xFFF (R195, R216; the lowest such address). Safe (D3). -/
  | addressOutOfRange (addr : Nat)
  deriving DecidableEq, Repr

/-- Why a step is refused: what the spec leaves without an effect and asks a model to refuse. -/
inductive Refusal where
  /-- An instruction the model gives no meaning. Raised by no arm of `exec`. Safe. -/
  | notModelled (mnemonic : String)
  /-- A host `load` of more than 3584 bytes (R293, U12, D22). Raised by the host's move, never by an instruction. Safe. -/
  | imageTooLong
  /-- A host `load` after a tick or after another `load` (R293, U13, D22). Raised by the host's move, never by an
  instruction. Safe. -/
  | loadNotOpen
  /-- An append to a full unprocessed queue of finite capacity (U8, D16). Raised by SKP and SKNP only when the parameter
  UQ_CAP is finite; at the spec's default (unbounded) never. Safe. -/
  | queueFull
  deriving DecidableEq, Repr

/-- One item of the raw input stream (R38). A key code is 0 to 15. -/
inductive RawEvent where
  /-- A key-down event of the key `k`. -/
  | key (k : Nibble)
  /-- Any other input; discarded when consumed. -/
  | other
  /-- The reserved termination signal. -/
  | exit
  deriving DecidableEq, Repr

/-- What the host can do to the core (R296). Reading the outputs changes nothing and needs no move. Anything else (U15) is
no move of the host. -/
inductive HostMove where
  /-- Put the core at its reset values (R290). -/
  | reset
  /-- Copy a program image to 0x200 (R293). -/
  | load (image : List Byte)
  /-- Append one raw event at the tail of `raw` (R38). -/
  | push (event : RawEvent)
  /-- Issue `tick(update_timers)` (R120). -/
  | tick (updateTimers : Bool)
  deriving DecidableEq, Repr

/-- Memory `M` (R30): the bytes that differ from the reset contents, by address, strictly rising. What the reset contents
are depends on FONT, which every operation on memory takes. -/
abbrev Memory := List Host.Cell

/-- The framebuffer (R33): 32 rows of 64 pixels, row 0 first. -/
abbrev Framebuffer := Vector PixelRow 32

/-- The architectural state (R20) and the model's port fields. -/
structure State where
  /-- The model's own: the parameters of R8, fixed for a run; no step writes them (R21); log 26. -/
  params : Params
  /-- `M`, 4096 bytes (R30). -/
  mem : Memory
  /-- V0 to VF; VF (number 15) is the flag (R22, R23). -/
  v : Vector Byte 16
  /-- The index register I (R25). -/
  i : Word
  /-- The program counter (R24). While an instruction executes it holds that instruction's address plus 2 (R122). -/
  pc : Word
  /-- The stack pointer: how many return addresses are on the stack (R26). -/
  sp : Nibble
  /-- The call stack (R27). -/
  stack : Vector Word 16
  /-- The delay timer (R28). -/
  dt : Byte
  /-- The sound timer (R28, R243). -/
  st : Byte
  /-- Set by a fault, cleared by reset only (R29, R263). -/
  halted : Bool
  /-- The recorded fault cause (R29, R261). -/
  fault : Option Fault
  /-- The framebuffer (R33). -/
  fb : Framebuffer
  /-- The unprocessed queue of key codes, oldest first (R35). -/
  uq : List Nibble
  /-- The sticky exit flag (R36). -/
  exitFlag : Bool
  /-- The raw event stream, oldest first: the environment's, consumed by the core (R20, R38). -/
  raw : List RawEvent
  /-- The model's own: the `update_timers` input the next tick takes (R21, R38); log 1. -/
  updateTimers : Bool
  /-- The model's own: the moves the host is about to make, first one first (R296); log 1. -/
  host : List HostMove
  /-- The model's own: `load` is still defined, as nothing was loaded and no tick has run since reset (R293); log 3. -/
  loadOpen : Bool
  /-- The model's own: how many random bytes have been drawn; the next one is `Config.rnd draws` (R173); log 2. -/
  draws : Nat
  /-- The model's own: how many `render_req` pulses have been emitted (R39, R127); log 9. -/
  renderReqs : Nat
  deriving DecidableEq, Repr

/-- The machine right after reset (R40, R290), at the default parameters, with nothing in the environment's stream and a host that has announced
nothing. -/
def State.reset : State where
  params := Config.defaults
  mem := []
  v := Vector.replicate 16 0
  i := 0
  pc := 0x200
  sp := 0
  stack := Vector.replicate 16 0
  dt := 0
  st := 0
  halted := false
  fault := none
  fb := Vector.replicate 32 0
  uq := []
  exitFlag := false
  raw := []
  updateTimers := true
  host := []
  loadOpen := true
  draws := 0
  renderReqs := 0

end Sys2Proof.Machine
end

