-- ==== Sys2Proof/Machine/Ops.lean ====
section
/-!
DEFINITION. The named operations over memory and state that every meaning is written with: one home for each register,
memory as sparse differences from the reset contents, and taking a fault (R262). There is no return from a fault beside
it, because the spec has none (R267): only reset leaves the halted state.
-/

namespace Sys2Proof.Machine

/-! ## Memory (R60, R66, R69) -/

/-- The byte at address `a`: what the list holds, else the reset contents (R72 (c)). -/
def Memory.read (font : Font) : Memory → Nat → Byte
  | [], a => Config.resetByte font a
  | (k, b) :: m, a => if k = a then b else Memory.read font m a

/-- Put a cell at its place in a rising list; a value equal to the reset contents is kept by leaving the cell out. -/
def Memory.insert (font : Font) (a : Nat) (b : Byte) : Memory → Memory
  | [] => if b = Config.resetByte font a then [] else [(a, b)]
  | (k, c) :: m =>
    if k < a then (k, c) :: Memory.insert font a b m
    else
      let rest := if k = a then m else (k, c) :: m
      if b = Config.resetByte font a then rest else (a, b) :: rest

/-- `M[a] <- b` (R11). An address above 0xFFF names no byte and nothing is written; every meaning checks its range first
(R67), so that case is reached by no instruction. -/
def Memory.write (font : Font) (m : Memory) (a : Nat) (b : Byte) : Memory :=
  if a < Config.memSize then Memory.insert font a b m else m

/-- Write bytes at increasing addresses (R74). -/
def Memory.writeBytes (font : Font) (m : Memory) (a : Nat) : List Byte → Memory
  | [] => m
  | b :: bs => Memory.writeBytes font (Memory.write font m a b) (a + 1) bs

/-- Every address of the list is above `lo`, addresses rise strictly, all are below 4096, and no cell holds the reset
contents of its address. -/
def Memory.wfFrom (font : Font) (lo : Nat) : Memory → Bool
  | [] => true
  | (k, b) :: m =>
    decide (lo ≤ k) && decide (k < Config.memSize) && decide (b ≠ Config.resetByte font k) &&
      Memory.wfFrom font (k + 1) m

/-- The canonical form of memory: equal memories are equal lists. -/
def Memory.wf (font : Font) (m : Memory) : Bool := Memory.wfFrom font 0 m

/-- `M[a]`: one byte read (R11). -/
def State.read (s : State) (a : Nat) : Byte := s.mem.read s.params.font a

/-- `n` bytes read at increasing addresses (R74). -/
def State.readBytes (s : State) (a n : Nat) : List Byte := (List.range n).map fun k => s.read (a + k)

/-- The state's memory is in canonical form. -/
def State.memWf (s : State) : Bool := s.mem.wf s.params.font

/-- All of the `count` addresses from `base` on name a byte; with `count = 0` there is none to check (R66, R67, R68). -/
def inRange (base count : Nat) : Bool := count == 0 || base + count ≤ Config.memSize

/-! ## Registers (R22 to R28) -/

/-- `V[x]`. -/
def State.reg (s : State) (x : Reg) : Byte := s.v[x.toNat]'x.isLt

/-- `V[x] <- b`. -/
def State.setReg (s : State) (x : Reg) (b : Byte) : State := { s with v := s.v.set x.toNat b x.isLt }

/-- The number of VF (R23). -/
abbrev vf : Reg := 0xF

/-- `I <- w`. -/
def State.setI (s : State) (w : Word) : State := { s with i := w }

/-- `PC <- w`. -/
def State.setPc (s : State) (w : Word) : State := { s with pc := w }

/-- `DT <- b`. -/
def State.setDt (s : State) (b : Byte) : State := { s with dt := b }

/-- `ST <- b`. -/
def State.setSt (s : State) (b : Byte) : State := { s with st := b }

/-- The pc advance of every tick (R122), and the extra 2 of a taken skip (R11). -/
def State.advance (s : State) : State := s.setPc (s.pc + 2)

/-- The rewind of a failed key wait (R237). -/
def State.rewind (s : State) : State := s.setPc (s.pc - 2)

/-- The address of the executing instruction, `pc0 = PC - 2` (41_control_transfer.md, notation). -/
def State.pc0 (s : State) : Word := s.pc - 2

/-- The next random byte is drawn (R173): the following one is a fresh free value. -/
def State.countDraw (s : State) : State := { s with draws := s.draws + 1 }

/-! ## The call stack (R26, R27) -/

/-- `stack[j]`. -/
def State.slot (s : State) (j : Nibble) : Word := s.stack[j.toNat]'j.isLt

/-- `stack[SP] <- PC; SP <- SP + 1` (R142). -/
def State.pushReturn (s : State) : State :=
  { s with stack := s.stack.set s.sp.toNat s.pc s.sp.isLt, sp := s.sp + 1 }

/-- `SP <- SP - 1; PC <- stack[SP]` (R143); the slot keeps its contents. -/
def State.popReturn (s : State) : State :=
  { s with sp := s.sp - 1, pc := s.slot (s.sp - 1) }

/-! ## Memory, framebuffer and input as parts of the state -/

/-- Store bytes at increasing addresses. -/
def State.storeBytes (s : State) (a : Nat) (bs : List Byte) : State := 
  { s with mem := s.mem.writeBytes s.params.font a bs }

/-- Replace the framebuffer. -/
def State.setFb (s : State) (f : Framebuffer) : State := { s with fb := f }

/-- What an operation of the input controller leaves (R230). -/
def State.setInput (s : State) (uq : List Nibble) (raw : List RawEvent) (exitFlag : Bool) : State :=
  { s with uq := uq, raw := raw, exitFlag := exitFlag }

/-- `load` is no longer defined: something was loaded or a tick has begun (R293, U13); log 3. -/
def State.closeLoad (s : State) : State := { s with loadOpen := false }

/-! ## Taking a fault (R262) -/

/-- `raise F`: `halted <- 1`, `fault <- F`, nothing else. The rest of the tick is abandoned by `finishTick` and by the
meanings, which write nothing beside it. -/
def State.raise (s : State) (f : Fault) : State := { s with halted := true, fault := some f }

/-- `halted` and `fault` as reset leaves them (R40). No instruction does this (R263, R267). -/
def State.clearFault (s : State) : State := { s with halted := false, fault := none }

/-- The cause code of a fault (R261). -/
def Fault.code : Fault → Nat
  | .illegalInstruction _ _ => 1
  | .stackOverflow _ => 2
  | .stackUnderflow _ => 3
  | .addressOutOfRange _ => 4

end Sys2Proof.Machine
end

