-- ==== Sys2Proof/Machine/Flags.lean ====
section
/-!
DEFINITION. The five flag computations (R23, R168 to R172), each from the operands' values before the instruction, computed
exactly on naturals and then narrowed, and the two writes they end in (R161).
-/

namespace Sys2Proof.Machine

/-- A flag as the byte VF receives: 1 or 0. -/
def flagByte (c : Bool) : Byte := if c then 1 else 0

/-- ADD: the low 8 bits of the 9-bit sum (R168). -/
def addResult (a b : Byte) : Byte := BitVec.ofNat 8 ((a.toNat + b.toNat) % 256)
/-- ADD: 1 if the sum exceeds 255 (R168). -/
def addFlag (a b : Byte) : Byte := flagByte (a.toNat + b.toNat > 255)

/-- SUB: `(a - b) mod 256` (R169). -/
def subResult (a b : Byte) : Byte := BitVec.ofNat 8 ((256 + a.toNat - b.toNat) % 256)
/-- SUB: 1 if `a >= b` (R169): not-borrow. -/
def subFlag (a b : Byte) : Byte := flagByte (a.toNat ≥ b.toNat)

/-- SHR: `a div 2` (R170). -/
def shrResult (a : Byte) : Byte := BitVec.ofNat 8 (a.toNat / 2)
/-- SHR: bit 0 before the shift (R170). -/
def shrFlag (a : Byte) : Byte := flagByte (a.getLsbD 0)

/-- SHL: `(a * 2) mod 256` (R172). -/
def shlResult (a : Byte) : Byte := BitVec.ofNat 8 (a.toNat * 2 % 256)
/-- SHL: bit 7 before the shift (R172). -/
def shlFlag (a : Byte) : Byte := flagByte (a.getLsbD 7)

/-- The two writes of a flag-writing ALU instruction, in the order of the parameter VF_ORDER (R161, D5): with x = F the
second one wins. The default order is the spec's choice, log 10. -/
def State.writeFlagged (s : State) (x : Reg) (result flag : Byte) : State :=
  match s.params.vfOrder with
  | .flagThenResult => (s.setReg vf flag).setReg x result
  | .resultThenFlag => (s.setReg x result).setReg vf flag

end Sys2Proof.Machine
end

