-- ==== Sys2Proof/Machine/Operands.lean ====
section
/-!
DEFINITION. The operand forms (R93, R194): zero-extended immediates and registers, the register-indirect effective
addresses I + k with their range check (R67, R195), register blocks, decimal digits and the font address.
-/

namespace Sys2Proof.Machine

/-- `zext_16(aaa)`: an absolute target, a value for I, an addend (R93). -/
def imm16 (aaa : Imm12) : Word := aaa.setWidth 16

/-- `zext_16(V[x])` (R144, R192). -/
def State.reg16 (s : State) (x : Reg) : Word := (s.reg x).setWidth 16

/-- `EA(0)`: the effective address of a memory instruction's first byte, as a natural number (R68, R194). -/
def State.base (s : State) : Nat := s.i.toNat

/-- The fault of a memory instruction that runs past 0xFFF: the lowest out-of-range effective address, `max(I, 0x1000)`
(R195). -/
def State.rangeFault (s : State) : Fault := .addressOutOfRange (max s.base 0x1000)

/-- Skip the next instruction if the condition holds: `PC <- PC + 2` on the already advanced pc (R11). -/
def State.skipIf (s : State) (c : Bool) : State := if c then s.advance else s

/-- How many bytes Fx55 and Fx65 move: `x + 1` (R198, R199). -/
def blockLength (x : Reg) : Nat := x.toNat + 1

/-- The values of V0 to Vx, V0 first (R198). -/
def State.regBlock (s : State) (x : Reg) : List Byte :=
  (List.range (blockLength x)).map fun k => s.reg (BitVec.ofNat 4 k)

/-- `for k in 0..n-1: V[k] <- M[a + k]`, ascending (R199). Memory does not change, so each register gets its own byte. -/
def State.loadRegs (s : State) (a : Nat) : Nat → State
  | 0 => s
  | k + 1 => (State.loadRegs s a k).setReg (BitVec.ofNat 4 k) (s.read (a + k))

/-- Hundreds, tens and units of a byte, each digit's value (R197). -/
def decimalDigits (b : Byte) : List Byte :=
  [BitVec.ofNat 8 (b.toNat / 100), BitVec.ofNat 8 (b.toNat / 10 % 10), BitVec.ofNat 8 (b.toNat % 10)]

/-- `(Vx & 0xF) * 5`: the address of the glyph of the low nibble (R193). -/
def glyphAddress (b : Byte) : Word := (b &&& 0xF).setWidth 16 * 5

end Sys2Proof.Machine
end

