-- ==== Sys2Proof/Machine/Display.lean ====
section
/-!
DEFINITION. The framebuffer's three operations (R210 to R214) and the two display instructions (R215, R216).
-/

namespace Sys2Proof.Machine

/-- The pixel in row `r`, column `c`: column 0 is the most significant bit of the row's word (R33, D18). Outside the 32 by
64 pixels there is none. -/
def Framebuffer.pixel (f : Framebuffer) (r c : Nat) : Bool :=
  if h : r < 32 then (f[r]'h).getMsbD c else false

/-- `clear()`: every pixel 0 (R211). -/
def clearedFb : Framebuffer := Vector.replicate 32 0

/-- The pixels of a row that a sprite byte drawn at column `x` toggles: the byte's leftmost bit at column `x mod 64`, the
others at the following columns, wrapping ("bit-rotated", R212). -/
def spriteMask (x : Nat) (b : Byte) : PixelRow := (b.setWidth 64 <<< 56).rotateRight (x % 64)

/-- `draw_sprite(x, y, bytes)` (R212): XOR the bytes into the rows `y mod 32`, `(y + 1) mod 32`, …, and say whether some
pixel that was 1 became 0 (R213). -/
def drawSprite (x : Nat) : Nat → List Byte → Framebuffer → Framebuffer × Bool
  | _, [], f => (f, false)
  | y, b :: bs, f =>
    let old := f[y % 32]'(Nat.mod_lt y (by decide))
    let mask := spriteMask x b
    let drawn := drawSprite x (y + 1) bs (f.set (y % 32) (old ^^^ mask) (Nat.mod_lt y (by decide)))
    (drawn.1, (old &&& mask) != 0 || drawn.2)

/-- `render()`: the 2048 triples (row, column, isSet), row-major (R214, D18). -/
def Framebuffer.render (f : Framebuffer) : List (Nat × Nat × Bool) :=
  (List.range 32).flatMap fun r => (List.range 64).map fun c => (r, c, f.pixel r c)

/-- The read-out port `render()` (R39, R214). -/
def State.render (s : State) : List (Nat × Nat × Bool) := s.fb.render

/-- Draw bytes at column `cx`, row `cy` and put the collision flag into VF (R216). -/
def State.draw (s : State) (cx cy : Nat) (bytes : List Byte) : State :=
  (s.setFb (drawSprite cx cy bytes s.fb).1).setReg vf (flagByte (drawSprite cx cy bytes s.fb).2)

/-- 00E0 CLS (R215). -/
def execCls (s : State) : Host.Outcome State Fault Refusal := .next (s.setFb clearedFb)

/-- Dxyn DRW Vx,Vy,n (R216): coordinates are read before VF is written, n bytes are read at I; n = 0 reads nothing and
cannot fault. The sprite's source is PRESUMED (G5, D6), unsafe; log 17. -/
def execDrw (x y : Reg) (n : Nibble) (s : State) : Host.Outcome State Fault Refusal :=
  .next (if inRange s.base n.toNat then
      s.draw (s.reg x).toNat (s.reg y).toNat (s.readBytes s.base n.toNat)
    else s.raise s.rangeFault)

end Sys2Proof.Machine
end

