-- ==== Sys2Proof/Machine/IndexMemory.lean ====
section
/-!
DEFINITION. The index register and the memory transfers (R190 to R199). The memory instructions check their whole range
first (R67, R195) and leave I unchanged (R196).
-/

namespace Sys2Proof.Machine

/-- Aaaa LD I,aaa (R191). -/
def execLdI (aaa : Imm12) (s : State) : Host.Outcome State Fault Refusal := .next (s.setI (imm16 aaa))

/-- Fx1E ADD I,Vx: modulo 65536, no flag (R192). -/
def execAddI (x : Reg) (s : State) : Host.Outcome State Fault Refusal := .next (s.setI (s.i + s.reg16 x))

/-- Fx29 LD F,Vx (R193). -/
def execLdF (x : Reg) (s : State) : Host.Outcome State Fault Refusal := .next (s.setI (glyphAddress (s.reg x)))

/-- Fx33 LD B,Vx: the decimal digits at I, I+1, I+2 (R197). -/
def execLdB (x : Reg) (s : State) : Host.Outcome State Fault Refusal :=
  .next (if inRange s.base 3 then s.storeBytes s.base (decimalDigits (s.reg x)) else s.raise s.rangeFault)

/-- Fx55 LD [I],Vx: V0 to Vx into memory (R198). -/
def execLdMemVx (x : Reg) (s : State) : Host.Outcome State Fault Refusal :=
  .next (if inRange s.base (blockLength x) then s.storeBytes s.base (s.regBlock x) else s.raise s.rangeFault)

/-- Fx65 LD Vx,[I]: memory into V0 to Vx (R199). -/
def execLdVxMem (x : Reg) (s : State) : Host.Outcome State Fault Refusal :=
  .next (if inRange s.base (blockLength x) then s.loadRegs s.base (blockLength x) else s.raise s.rangeFault)

end Sys2Proof.Machine
end

