-- ==== Sys2Proof/Machine/Input.lean ====
section
/-!
DEFINITION. The input controller (R230 to R234) and the key instructions (R235 to R237).
-/

namespace Sys2Proof.Machine

/-- What `check_if_pressed` answers and leaves (R231). -/
structure KeyCheck where
  /-- The result: the key was pending. -/
  hit : Bool
  uq : List Nibble
  raw : List RawEvent
  exitFlag : Bool
  deriving DecidableEq, Repr

/-- A key code equals an expected 8-bit value; the value is not masked (R232, D12). -/
def keyMatches (expected : Byte) (k : Nibble) : Bool := k.setWidth 8 == expected

/-- Phase 1 of R231: the queue after the first (oldest) entry equal to `expected`, or `none` if there is no such entry. -/
def afterMatch (expected : Byte) : List Nibble → Option (List Nibble)
  | [] => none
  | k :: ks => if keyMatches expected k then some ks else afterMatch expected ks

/-- The queue has as many entries as a finite UQ_CAP allows (R8, U8). -/
def queueIsFull (cap : Option Nat) (uq : List Nibble) : Bool :=
  match cap with
  | none => false
  | some c => c ≤ uq.length

/-- Phase 2 of R231: drain the raw stream until a match or its end. `none` when a key has to be appended to a queue that is
full (U8: refused). -/
def drainRaw (cap : Option Nat) (expected : Byte) : List RawEvent → List Nibble → Bool → Option KeyCheck
  | [], uq, ef => some ⟨false, uq, [], ef⟩
  | .exit :: es, uq, _ => drainRaw cap expected es uq true
  | .other :: es, uq, ef => drainRaw cap expected es uq ef
  | .key k :: es, uq, ef =>
    if keyMatches expected k then some ⟨true, [], es, ef⟩
    else if queueIsFull cap uq then none
    else drainRaw cap expected es (uq ++ [k]) ef

/-- `check_if_pressed(expected)` (R231). -/
def checkIfPressed (cap : Option Nat) (expected : Byte) (s : State) : Option KeyCheck :=
  match afterMatch expected s.uq with
  | some rest => some ⟨true, rest, s.raw, s.exitFlag⟩
  | none => drainRaw cap expected s.raw s.uq s.exitFlag

/-- The key check of SKP and SKNP: run it on Vx, leave what it leaves, and skip if its result is `wanted` (R235, R236). -/
def skipOnKey (wanted : Bool) (x : Reg) (s : State) : Host.Outcome State Fault Refusal :=
  match checkIfPressed s.params.uqCap (s.reg x) s with
  | some c => .next ((s.setInput c.uq c.raw c.exitFlag).skipIf (c.hit == wanted))
  | none => .refused .queueFull

/-- `wait_for_key_press()` and what Fx0A does with its answer (R233, R237): exactly one raw event is consumed if there is
one; a key goes to Vx, anything else rewinds the pc; `uq` is neither read nor written. -/
def State.waitKey (s : State) (x : Reg) : State :=
  match s.raw with
  | [] => s.rewind
  | .key k :: es => (s.setInput s.uq es s.exitFlag).setReg x (k.setWidth 8)
  | .exit :: es => (s.setInput s.uq es true).rewind
  | .other :: es => (s.setInput s.uq es s.exitFlag).rewind

/-- Ex9E SKP Vx (R235). -/
def execSkp (x : Reg) (s : State) : Host.Outcome State Fault Refusal := skipOnKey true x s

/-- ExA1 SKNP Vx (R236). -/
def execSknp (x : Reg) (s : State) : Host.Outcome State Fault Refusal := skipOnKey false x s

/-- Fx0A LD Vx,K (R237). -/
def execLdVxK (x : Reg) (s : State) : Host.Outcome State Fault Refusal := .next (s.waitKey x)

end Sys2Proof.Machine
end

