-- ==== Sys2Proof/Machine/LoadAlu.lean ====
section
/-!
DEFINITION. Register loads and the ALU (R160 to R175). Operands are read from the state before any write (R161); no
instruction of this file faults (R160).
-/

namespace Sys2Proof.Machine

/-- 6xkk LD Vx,kk (R162). -/
def execLdImm (x : Reg) (kk : Byte) (s : State) : Host.Outcome State Fault Refusal := .next (s.setReg x kk)

/-- 7xkk ADD Vx,kk: 8-bit wraparound, no flag (R163). -/
def execAddImm (x : Reg) (kk : Byte) (s : State) : Host.Outcome State Fault Refusal :=
  .next (s.setReg x (addResult (s.reg x) kk))

/-- 8xy0 LD Vx,Vy (R164). -/
def execLdReg (x y : Reg) (s : State) : Host.Outcome State Fault Refusal := .next (s.setReg x (s.reg y))

/-- 8xy1 OR Vx,Vy: no flag change (R165). -/
def execOrReg (x y : Reg) (s : State) : Host.Outcome State Fault Refusal :=
  .next (s.setReg x (s.reg x ||| s.reg y))

/-- 8xy2 AND Vx,Vy: no flag change (R166). -/
def execAndReg (x y : Reg) (s : State) : Host.Outcome State Fault Refusal :=
  .next (s.setReg x (s.reg x &&& s.reg y))

/-- 8xy3 XOR Vx,Vy: no flag change (R167). -/
def execXorReg (x y : Reg) (s : State) : Host.Outcome State Fault Refusal :=
  .next (s.setReg x (s.reg x ^^^ s.reg y))

/-- 8xy4 ADD Vx,Vy: VF = carry (R168). -/
def execAddReg (x y : Reg) (s : State) : Host.Outcome State Fault Refusal :=
  .next (s.writeFlagged x (addResult (s.reg x) (s.reg y)) (addFlag (s.reg x) (s.reg y)))

/-- 8xy5 SUB Vx,Vy: VF = not-borrow of Vx - Vy (R169). -/
def execSubReg (x y : Reg) (s : State) : Host.Outcome State Fault Refusal :=
  .next (s.writeFlagged x (subResult (s.reg x) (s.reg y)) (subFlag (s.reg x) (s.reg y)))

/-- 8xy6 SHR Vx: VF = the bit shifted out; y ignored (R170). -/
def execShr (x _y : Reg) (s : State) : Host.Outcome State Fault Refusal :=
  .next (s.writeFlagged x (shrResult (s.reg x)) (shrFlag (s.reg x)))

/-- 8xy7 SUBN Vx,Vy: VF = not-borrow of Vy - Vx (R171). -/
def execSubn (x y : Reg) (s : State) : Host.Outcome State Fault Refusal :=
  .next (s.writeFlagged x (subResult (s.reg y) (s.reg x)) (subFlag (s.reg y) (s.reg x)))

/-- 8xyE SHL Vx: VF = the bit shifted out; y ignored (R172). -/
def execShl (x _y : Reg) (s : State) : Host.Outcome State Fault Refusal :=
  .next (s.writeFlagged x (shlResult (s.reg x)) (shlFlag (s.reg x)))

/-- Cxkk RND Vx,kk: a fresh free byte, masked (R173, D17); log 2. -/
def execRnd (x : Reg) (kk : Byte) (s : State) : Host.Outcome State Fault Refusal :=
  .next (s.countDraw.setReg x (Config.rnd s.draws &&& kk))

end Sys2Proof.Machine
end

