-- ==== Sys2Proof/Machine/SysControl.lean ====
section
/-!
DEFINITION. SYS and the control-transfer family (R128, R140 to R149). Every meaning starts from the advanced pc (R122).
Targets are not checked (R64, R140).
-/

namespace Sys2Proof.Machine

/-- 0nnn SYS aaa: a no-op (R128). -/
def execSys (_aaa : Imm12) (s : State) : Host.Outcome State Fault Refusal := .next s

/-- 1aaa JP aaa: `PC <- zext_16(aaa)` (R141). -/
def execJp (aaa : Imm12) (s : State) : Host.Outcome State Fault Refusal := .next (s.setPc (imm16 aaa))

/-- 2aaa CALL aaa (R142): StackOverflow with SP = 15, else push the advanced pc and jump. -/
def execCall (aaa : Imm12) (s : State) : Host.Outcome State Fault Refusal :=
  .next (if s.sp = 15 then s.raise (.stackOverflow s.pc0) else s.pushReturn.setPc (imm16 aaa))

/-- 00EE RET (R143): StackUnderflow with SP = 0, else pop into the pc. -/
def execRet (s : State) : Host.Outcome State Fault Refusal :=
  .next (if s.sp = 0 then s.raise (.stackUnderflow s.pc0) else s.popReturn)

/-- Baaa JP V0,aaa: `PC <- zext_16(V[0]) + zext_16(aaa)` (R144). -/
def execJpV0 (aaa : Imm12) (s : State) : Host.Outcome State Fault Refusal :=
  .next (s.setPc (s.reg16 0 + imm16 aaa))

/-- 3xkk SE Vx,kk (R145). -/
def execSeImm (x : Reg) (kk : Byte) (s : State) : Host.Outcome State Fault Refusal :=
  .next (s.skipIf (s.reg x == kk))

/-- 4xkk SNE Vx,kk (R146). -/
def execSneImm (x : Reg) (kk : Byte) (s : State) : Host.Outcome State Fault Refusal :=
  .next (s.skipIf (s.reg x != kk))

/-- 5xy0 SE Vx,Vy (R147). -/
def execSeReg (x y : Reg) (s : State) : Host.Outcome State Fault Refusal :=
  .next (s.skipIf (s.reg x == s.reg y))

/-- 9xy0 SNE Vx,Vy (R148). -/
def execSneReg (x y : Reg) (s : State) : Host.Outcome State Fault Refusal :=
  .next (s.skipIf (s.reg x != s.reg y))

end Sys2Proof.Machine
end

