-- ==== Sys2Proof/Machine/Timers.lean ====
section
/-!
DEFINITION. The timers: the three instructions that reach them (R240 to R243) and the decrement at the end of a tick (R126).
-/

namespace Sys2Proof.Machine

/-- One count down, floored at zero (R126, R174). -/
def countDown (b : Byte) : Byte := if b = 0 then 0 else b - 1

/-- Step 5 of a tick (R120, R126): with `update_timers = 1` each timer counts down on its own. -/
def State.updateTimerRegs (s : State) : State :=
  if s.updateTimers then (s.setDt (countDown s.dt)).setSt (countDown s.st) else s

/-- Fx07 LD Vx,DT (R241). -/
def execLdVxDt (x : Reg) (s : State) : Host.Outcome State Fault Refusal := .next (s.setReg x s.dt)

/-- Fx15 LD DT,Vx (R242). -/
def execLdDtVx (x : Reg) (s : State) : Host.Outcome State Fault Refusal := .next (s.setDt (s.reg x))

/-- Fx18 LD ST,Vx (R243). -/
def execLdStVx (x : Reg) (s : State) : Host.Outcome State Fault Refusal := .next (s.setSt (s.reg x))

end Sys2Proof.Machine
end

