-- ==== Sys2Proof/Machine/HostPort.lean ====
section
/-!
DEFINITION. The host's side of the ports (R38, R290, R293, R296): reset, load, pushing raw events, and the `update_timers`
argument of a tick. Between two ticks the host makes any of these moves in any order (U10, U11, D29).
-/

namespace Sys2Proof.Machine

/-- The machine right after reset, at given parameters (R8, R40): FONT decides what memory holds, the rest is as
`State.reset` has it. -/
def State.resetWith (p : Params) : State := { State.reset with params := p }

/-- The host move `reset` (R290): every piece of the core at the value of R40. `raw` belongs to the environment and is not
reset by the core (R40); the parameters are fixed for a run (R21); the model's port fields stay, the draw counter among them, so that the bytes drawn after a reset
are fresh (R173). -/
def State.hostReset (s : State) : State :=
  { State.resetWith s.params with
    raw := s.raw
    updateTimers := s.updateTimers
    host := s.host
    draws := s.draws
    renderReqs := s.renderReqs }

/-- The host move `load(bytes)` (R293): defined once, after reset and before the first tick (U13), for at most 3584 bytes
(U12); it changes nothing but memory from 0x200 on. -/
def State.load (image : List Byte) (s : State) : Host.Outcome State Fault Refusal :=
  if !s.loadOpen then .refused .loadNotOpen
  else if image.length > Config.progMax then .refused .imageTooLong
  else .next (s.storeBytes Config.progBase image).closeLoad

/-- The host appends one raw event at the tail of `raw` (R38). -/
def State.pushRaw (s : State) (e : RawEvent) : State := { s with raw := s.raw ++ [e] }

/-- The argument of the next tick. -/
def State.setUpdateTimers (s : State) (b : Bool) : State := { s with updateTimers := b }

/-- The moves the host has still to make. -/
def State.setHost (s : State) (ms : List HostMove) : State := { s with host := ms }

/-- The host makes its announced moves up to and including its next `tick` command, whose argument it leaves in
`updateTimers`; the moves after that stay announced. With no `tick` among them the argument stays as it is: log 1. -/
def hostMoves : List HostMove → State → Host.Outcome State Fault Refusal
  | [], s => .next (s.setHost [])
  | .reset :: ms, s => hostMoves ms s.hostReset
  | .load image :: ms, s =>
    match State.load image s with
    | .next t => hostMoves ms t
    | .fault f => .fault f
    | .refused r => .refused r
  | .push e :: ms, s => hostMoves ms (s.pushRaw e)
  | .tick b :: ms, s => .next ((s.setUpdateTimers b).setHost ms)

/-- What the host does before the next tick. -/
def State.hostTurn (s : State) : Host.Outcome State Fault Refusal := hostMoves s.host s

end Sys2Proof.Machine
end

