-- ==== Sys2Proof/Machine/Tick.lean ====
section
/-!
DEFINITION. One tick (R120 to R131): halted check, fetch, pc advance, decode, one handler, timers, render request.
-/

namespace Sys2Proof.Machine

/-- The instruction word at the pc, first byte high (R62, R121). -/
def State.fetchWord (s : State) : Word :=
  wordOfBytes (s.read s.pc.toNat) (s.read (s.pc.toNat + 1))

/-- Step 6 of a tick: the `render_req` pulse (R127). -/
def State.pulseRender (s : State) : State := { s with renderReqs := s.renderReqs + 1 }

/-- Steps 5 and 6 of a tick, left out when the handler raised a fault (R125). -/
def State.finishTick (s : State) : State := if s.halted then s else s.updateTimerRegs.pulseRender

/-- Steps 3 to 6 of a tick for the fetched word `w`, on the state with the advanced pc (R123, R124). -/
def runWord (w : Word) (s : State) : Host.Outcome State Fault Refusal :=
  match decodeWord w with
  | .error _ => .next (s.raise (.illegalInstruction w s.pc0))
  | .ok i =>
    match exec i s with
    | .next t => .next t.finishTick
    | .fault f => .fault f
    | .refused r => .refused r

/-- One `tick` command, with its argument in `updateTimers` (R120): a no-op when halted (R129); a fetch past 0xFFE faults
with the pc unchanged (R121); else the fetched word is run from the advanced pc (R122). -/
def tick (s : State) : Host.Outcome State Fault Refusal :=
  if s.halted then .next s
  else if s.pc.toNat > 0xFFE then .next (s.closeLoad.raise (.addressOutOfRange s.pc.toNat))
  else runWord s.fetchWord s.closeLoad.advance

/-- The bytes of an instruction placed where the next tick fetches, on a core that is not halted: `step` runs it next. -/
def State.placeWord (s : State) (w : Word) : State :=
  (s.storeBytes s.pc.toNat (bytesOfWord w)).clearFault

end Sys2Proof.Machine
end

