-- ==== Sys2Proof/Machine/Step.lean ====
section
/-!
DEFINITION. One step of the machine: what the host does before its next tick (R296), then that tick (R120).
-/

namespace Sys2Proof.Machine

/-- One step: the host's moves up to its next `tick` command, then the tick. -/
def step (s : State) : Host.Outcome State Fault Refusal :=
  match s.hostTurn with
  | .next t => tick t
  | .fault f => .fault f
  | .refused r => .refused r

/-- `s` with the instruction whose bits are `w` (numbered as `spec/opcode_table.json` numbers them) where the next tick
fetches. From `State.reset` it stands for a load of that instruction; log 4. -/
def State.withFetchWord (s : State) (nbits w : Nat) : State := s.placeWord (tableWord nbits w)

end Sys2Proof.Machine
end

