-- ==== Sys2Proof/Safety.lean ====
section
/-!
DEFINITION. The words claims are stated in: the parts of the state and what it means that two states agree on them, what
each instruction may write (R13 with the family rules), the pixels a sprite covers, the invariant of the machine, and a
running core.
-/

namespace Sys2Proof.Safety

open Sys2Proof.Machine

/-! ## Agreement of two states -/

/-- The pieces of the state, one name per field. -/
inductive Part where
  | mem | regs | i | pc | sp | stack | dt | st | halted | fault | fb | uq | exitFlag | raw
  | params | updateTimers | host | loadOpen | draws | renderReqs
  deriving DecidableEq, Repr

/-- Two states agree on a part. Memory is compared by reading every byte. -/
def samePart : Part → State → State → Prop
  | .mem, s, t => ∀ a : Nat, t.read a = s.read a
  | .regs, s, t => ∀ r : Reg, t.reg r = s.reg r
  | .i, s, t => t.i = s.i
  | .pc, s, t => t.pc = s.pc
  | .sp, s, t => t.sp = s.sp
  | .stack, s, t => ∀ j : Nibble, t.slot j = s.slot j
  | .dt, s, t => t.dt = s.dt
  | .st, s, t => t.st = s.st
  | .halted, s, t => t.halted = s.halted
  | .fault, s, t => t.fault = s.fault
  | .fb, s, t => ∀ r c : Nat, t.fb.pixel r c = s.fb.pixel r c
  | .uq, s, t => t.uq = s.uq
  | .exitFlag, s, t => t.exitFlag = s.exitFlag
  | .raw, s, t => t.raw = s.raw
  | .params, s, t => t.params = s.params
  | .updateTimers, s, t => t.updateTimers = s.updateTimers
  | .host, s, t => t.host = s.host
  | .loadOpen, s, t => t.loadOpen = s.loadOpen
  | .draws, s, t => t.draws = s.draws
  | .renderReqs, s, t => t.renderReqs = s.renderReqs

/-- Going from `s` to `t` changed nothing but the listed parts. -/
def sameExcept (ps : List Part) (s t : State) : Prop := ∀ p : Part, p ∉ ps → samePart p s t

/-- Going from `s` to `t` changed no register but the listed ones. -/
def regsExcept (xs : List Reg) (s t : State) : Prop := ∀ r : Reg, r ∉ xs → t.reg r = s.reg r

/-- Going from `s` to `t` changed no byte outside the `n` addresses from `a` on. -/
def memExcept (a n : Nat) (s t : State) : Prop :=
  ∀ b : Nat, ¬ (a ≤ b ∧ b < a + n) → t.read b = s.read b

/-- Going from `s` to `t` no fault was raised and VF was not written. -/
def noFaultNoFlag (s t : State) : Prop := t.halted = s.halted ∧ t.fault = s.fault ∧ t.reg vf = s.reg vf

/-! ## What an instruction may write (R13, R23, R140, R160, R190) -/

/-- The parts an instruction may write, its fault entry included. -/
def mayWrite : Instr → List Part
  | .cls => [.fb]
  | .ret => [.sp, .pc, .halted, .fault]
  | .sys _ => []
  | .jp _ => [.pc]
  | .call _ => [.stack, .sp, .pc, .halted, .fault]
  | .seImm _ _ => [.pc]
  | .sneImm _ _ => [.pc]
  | .seReg _ _ => [.pc]
  | .ldImm _ _ => [.regs]
  | .addImm _ _ => [.regs]
  | .ldReg _ _ => [.regs]
  | .orReg _ _ => [.regs]
  | .andReg _ _ => [.regs]
  | .xorReg _ _ => [.regs]
  | .addReg _ _ => [.regs]
  | .subReg _ _ => [.regs]
  | .shr _ _ => [.regs]
  | .subn _ _ => [.regs]
  | .shl _ _ => [.regs]
  | .sneReg _ _ => [.pc]
  | .ldI _ => [.i]
  | .jpV0 _ => [.pc]
  | .rnd _ _ => [.regs, .draws]
  | .drw _ _ _ => [.fb, .regs, .halted, .fault]
  | .skp _ => [.pc, .uq, .raw, .exitFlag]
  | .sknp _ => [.pc, .uq, .raw, .exitFlag]
  | .ldVxDt _ => [.regs]
  | .ldVxK _ => [.regs, .pc, .raw, .exitFlag]
  | .ldDtVx _ => [.dt]
  | .ldStVx _ => [.st]
  | .addI _ => [.i]
  | .ldF _ => [.i]
  | .ldB _ => [.mem, .halted, .fault]
  | .ldMemVx _ => [.mem, .halted, .fault]
  | .ldVxMem _ => [.regs, .halted, .fault]

/-- The registers an instruction may write: its destinations, VF for the six flag-writing instructions of R23, and V0 to Vx
for Fx65. -/
def regsWritten : Instr → List Reg
  | .ldImm x _ => [x]
  | .addImm x _ => [x]
  | .ldReg x _ => [x]
  | .orReg x _ => [x]
  | .andReg x _ => [x]
  | .xorReg x _ => [x]
  | .addReg x _ => [x, vf]
  | .subReg x _ => [x, vf]
  | .shr x _ => [x, vf]
  | .subn x _ => [x, vf]
  | .shl x _ => [x, vf]
  | .rnd x _ => [x]
  | .drw _ _ _ => [vf]
  | .ldVxDt x => [x]
  | .ldVxK x => [x]
  | .ldVxMem x => (List.range (blockLength x)).map (BitVec.ofNat 4)
  | _ => []

/-- The address of the first byte an instruction stores to: I, through the effective address the meanings use. -/
def storeBase (s : State) : Nat := s.base

/-- How many bytes an instruction stores: three for Fx33, x + 1 for Fx55, none for every other. -/
def storeCount : Instr → Nat
  | .ldB _ => 3
  | .ldMemVx x => blockLength x
  | _ => 0

/-! ## Decoding -/

/-- Every word whose bits under `mask` are `pattern` is read as the instruction `build` makes of its fields. -/
def readsAs (mask pattern : Word) (build : Word → Instr) : Prop :=
  ∀ w : Word, w &&& mask = pattern → decodeWord w = .ok (build w)

/-! ## Sprites (R212) -/

/-- A set bit of the sprite drawn at column `x`, row `y` lies on the pixel (r, c): row `k` of the sprite at `(y + k) mod 32`,
its bit `7 - j` at column `(x + j) mod 64`. -/
def covers (x y : Nat) (bytes : List Byte) (r c : Nat) : Prop :=
  ∃ k j : Nat, k < bytes.length ∧ j < 8 ∧ (bytes.getD k 0).getLsbD (7 - j) = true ∧
    r = (y + k) % 32 ∧ c = (x + j) % 64

/-! ## Input (R231) -/

/-- The key codes of a stretch of raw events, in order. -/
def keysOf : List RawEvent → List Nibble
  | [] => []
  | .key k :: es => k :: keysOf es
  | .other :: es => keysOf es
  | .exit :: es => keysOf es

/-- A queue of capacity `cap` that holds `size` keys takes `more` keys (R35, U8). -/
def roomFor (cap : Option Nat) (size more : Nat) : Prop := more = 0 ∨ ∀ c, cap = some c → size + more ≤ c

/-! ## Runs -/

/-- The core is running and its next fetch is inside memory (R121, R131). -/
def fetches (s : State) : Prop := s.halted = false ∧ s.pc.toNat ≤ 0xFFE

/-- The state an instruction's handler starts from: the tick has begun and the pc is advanced (R122). -/
def handlerStart (s : State) : State := s.closeLoad.advance

/-- The invariant of the machine: FONT has the source's glyph A (R8), memory is canonical, a fault cause is recorded exactly
when the core is halted (R29), the pc is at most 0x10FE (R24), every return address is at most 0x1000 (R142), slot 15 is
never written (R27), a halted core has `load` closed (log 3), and a finite queue is not over its capacity (R35). -/
structure MachineInv (s : State) : Prop where
  glyphA : s.params.font.hasGlyphA = true
  memCanonical : s.memWf = true
  faultIffHalted : s.halted = s.fault.isSome
  pcBound : s.pc.toNat ≤ 0x10FE
  slotBound : ∀ j : Nibble, (s.slot j).toNat ≤ 0x1000
  slot15 : s.slot 15 = 0
  haltedLoadClosed : s.halted = true → s.loadOpen = false
  queueFits : ∀ c, s.params.uqCap = some c → s.uq.length ≤ c

/-- Two states that differ at most in stack slots at or above SP (R27, U17). -/
def sameLiveState (s t : State) : Prop :=
  t = { s with stack := t.stack } ∧ ∀ j : Nibble, j.toNat < s.sp.toNat → t.slot j = s.slot j

/-- An outcome with its next state, if it has one, seen through `f`. -/
def mapNext (f : State → State) : Host.Outcome State Fault Refusal → Host.Outcome State Fault Refusal
  | .next s => .next (f s)
  | .fault r => .fault r
  | .refused r => .refused r

end Sys2Proof.Safety
end

