-- ==== Sys2Proof/Certificates/Slice0/Obligations.lean ====
section
/-!
DEFINITION. The statements for the provers. Each docstring names the rule of `spec/` it formalises; "log n" is
`notes/assumptions/<n>.md`. `exec i s` runs the handler of `i` on `s`, whose pc is already advanced (R122).
-/

open Sys2Proof Sys2Proof.Machine Sys2Proof.Safety

/-! ## Encoding -/

/-- R96, R97 (function nibbles: D8, log 18; byte order: D1, log 16; strict matching: D23, log 24): fourteen words
written in the spec; eleven decode to the instruction they stand for, three (5121, 812F, F1FF) to none. -/
def Obligations.SpecWordsDecodeAsWritten : Prop :=
  decodeTableWord 16 0x00E0 = some .cls ∧ decodeTableWord 16 0x00EE = some .ret ∧
  decodeTableWord 16 0x0234 = some (.sys 0x234) ∧ decodeTableWord 16 0x1ABC = some (.jp 0xABC) ∧
  decodeTableWord 16 0x2210 = some (.call 0x210) ∧ decodeTableWord 16 0x332A = some (.seImm 3 0x2A) ∧
  decodeTableWord 16 0x8294 = some (.addReg 2 9) ∧ decodeTableWord 16 0xB300 = some (.jpV0 0x300) ∧
  decodeTableWord 16 0xD125 = some (.drw 1 2 5) ∧ decodeTableWord 16 0xE19E = some (.skp 1) ∧
  decodeTableWord 16 0xF255 = some (.ldMemVx 2) ∧ decodeTableWord 16 0x5121 = none ∧
  decodeTableWord 16 0x812F = none ∧ decodeTableWord 16 0xF1FF = none

/-- R90, R92, R93, R96: the bytes of every well-formed instruction decode to it, whatever follows them. -/
def Obligations.DecodeInvertsEncode : Prop :=
  ∀ (i : Instr) (rest : List Byte), wellFormed i = true → decodeBytes (encodeBytes i ++ rest) = .ok (i, rest)

/-- R94, R96: a word that decodes is the encoding of the instruction it decodes to, which is well-formed; so each legal
word has one meaning and each instruction one word. -/
def Obligations.EncodeInvertsDecode : Prop :=
  ∀ (w : Word) (i : Instr), decodeWord w = .ok i → encode i = w ∧ wellFormed i = true

/-- R94: the first row that matches decides; a word that matches none is illegal; the only overlap is SYS (row 2,
counted from 0) with 00E0 and 00EE. -/
def Obligations.FirstMatchingRowDecodes : Prop :=
  (∀ (w : Word) (k : Nat) (r : OpcodeRow), opcodeRows[k]? = some r → rowMatches w r = true →
    (∀ (j : Nat) (q : OpcodeRow), j < k → opcodeRows[j]? = some q → rowMatches w q = false) →
    decodeWord w = .ok (r.build w)) ∧
  (∀ w : Word, (∀ r ∈ opcodeRows, rowMatches w r = false) → ∃ e, decodeWord w = .error e) ∧
  (∀ (w : Word) (j k : Nat) (q r : OpcodeRow), j < k → opcodeRows[j]? = some q → opcodeRows[k]? = some r →
    rowMatches w q = true → rowMatches w r = true → k = 2 ∧ (w = 0x00E0 ∨ w = 0x00EE))

/-- R97 (strict matching is the spec's decision D23, log 24; which nibbles of opcode 8 are no function is D8 and G3, log
18): the illegal words are exactly the five lines of its table, each refused by its own name. -/
def Obligations.IllegalWordsAreRefusedByName : Prop :=
  ∀ w : Word,
    (decodeWord w = .error .illegalSeReg ↔ opField w = 0x5 ∧ nField w ≠ 0x0) ∧
    (decodeWord w = .error .illegalSneReg ↔ opField w = 0x9 ∧ nField w ≠ 0x0) ∧
    (decodeWord w = .error .illegalAlu ↔ opField w = 0x8 ∧ nField w ∈ [0x8#4, 0x9#4, 0xA#4, 0xB#4, 0xC#4, 0xD#4, 0xF#4]) ∧
    (decodeWord w = .error .illegalKey ↔ opField w = 0xE ∧ kkField w ∉ [0x9E#8, 0xA1#8]) ∧
    (decodeWord w = .error .illegalMisc ↔ opField w = 0xF ∧
      kkField w ∉ [0x07#8, 0x0A#8, 0x15#8, 0x18#8, 0x1E#8, 0x29#8, 0x33#8, 0x55#8, 0x65#8]) ∧
    decodeWord w ≠ .error .tooShort

/-! ## The tick and the host's moves -/

/-- R120, R121, R123, R124: after the host's turn, a running core whose pc is inside memory and whose two bytes at the
pc decode to a well-formed instruction runs exactly that instruction, from the pc advanced by 2 and with `load`
closed (R293, log 3), and then finishes the tick. The order of the steps is the spec's decision D9 (log 19). -/
def Obligations.StepRunsTheDecodedInstruction : Prop :=
  ∀ (s t : State) (i : Instr), s.hostTurn = .next t → fetches t →
    decodeBytes [t.read t.pc.toNat, t.read (t.pc.toNat + 1)] = .ok (i, []) → wellFormed i = true →
    (handlerStart t).pc = t.pc + 2 ∧ (handlerStart t).loadOpen = false ∧
    step s =
      match exec i (handlerStart t) with
      | .next u => .next u.finishTick
      | .fault f => .fault f
      | .refused r => .refused r

/-- R38, R296 (moves land between ticks: decision D29; the list of moves is the model's, log 1): the announced moves are
made one by one, first one first, up to and including the next tick command, whose argument the tick takes; with no
move announced the step is a tick with the argument as it stands. A pushed event goes to the tail of `raw` and
nothing else changes. A load that is refused (U12, U13; log 3) refuses the step. -/
def Obligations.HostMovesPrecedeTheTick : Prop :=
  (∀ s : State, s.host = [] → step s = tick s) ∧
  (∀ (s : State) (b : Bool) (ms : List HostMove), s.host = .tick b :: ms →
    step s = tick ((s.setUpdateTimers b).setHost ms)) ∧
  (∀ (s : State) (e : RawEvent) (ms : List HostMove), s.host = .push e :: ms →
    step s = step ((s.pushRaw e).setHost ms)) ∧
  (∀ (s : State) (ms : List HostMove), s.host = .reset :: ms → step s = step (s.hostReset.setHost ms)) ∧
  (∀ (s t : State) (image : List Byte) (ms : List HostMove), s.host = .load image :: ms →
    State.load image s = .next t → step s = step (t.setHost ms)) ∧
  (∀ (s : State) (image : List Byte) (ms : List HostMove) (r : Refusal), s.host = .load image :: ms →
    State.load image s = .refused r → step s = .refused r) ∧
  (∀ (s : State) (e : RawEvent), (s.pushRaw e).raw = s.raw ++ [e] ∧ sameExcept [.raw] s (s.pushRaw e)) ∧
  (∀ (s : State) (b : Bool), (s.setUpdateTimers b).updateTimers = b ∧
    sameExcept [.updateTimers] s (s.setUpdateTimers b)) ∧
  (∀ (s : State) (ms : List HostMove), (s.setHost ms).host = ms ∧ sameExcept [.host] s (s.setHost ms))

/-- R122: the pc is advanced by 2 after the fetch and before anything else, so the handler sees its own instruction's
address plus 2; the sum does not wrap. -/
def Obligations.HandlerSeesTheAdvancedPc : Prop :=
  ∀ s : State, fetches s →
    tick s = runWord s.fetchWord (handlerStart s) ∧ (handlerStart s).pc.toNat = s.pc.toNat + 2 ∧
    (handlerStart s).pc0 = s.pc ∧ sameExcept [.pc, .loadOpen] s (handlerStart s)

/-- R129, R263 (the halted state is the spec's decision D19, log 8): a tick of a halted core changes nothing. -/
def Obligations.HaltedTickChangesNothing : Prop := ∀ s : State, s.halted = true → tick s = .next s

/-- R121, R262 (decisions D3, D19; logs 8, 12): a fetch past 0xFFE halts the core with the pc as the recorded address
and changes nothing else, the timers and the render pulse among it (and `load` is closed). -/
def Obligations.FetchPastMemoryFaults : Prop :=
  ∀ s : State, s.halted = false → 0xFFE < s.pc.toNat →
    ∃ t, tick s = .next t ∧ t.halted = true ∧ t.fault = some (.addressOutOfRange s.pc.toNat) ∧
      sameExcept [.halted, .fault, .loadOpen] s t

/-- R97, R124, R125, R262 (decisions D19, D23; logs 8, 24): an illegal word halts the core with the word and its address
recorded and the pc past it, and changes nothing else. -/
def Obligations.IllegalWordFaults : Prop :=
  ∀ (s : State) (e : DecodeError), fetches s → decodeWord s.fetchWord = .error e →
    ∃ t, tick s = .next t ∧ t.halted = true ∧ t.fault = some (.illegalInstruction s.fetchWord s.pc) ∧
      t.pc.toNat = s.pc.toNat + 2 ∧ sameExcept [.halted, .fault, .pc, .loadOpen] s t

/-- R125, R126, R127 (decisions D9, D19, D21; logs 8, 9, 19): when the instruction raised nothing, each timer counts
down by one, floored at zero, if and only if `update_timers` is 1, one render pulse is emitted, and nothing else
changes after the instruction; when it raised a fault the tick ends where the instruction ended. -/
def Obligations.TickEndsWithTimersAndRender : Prop :=
  ∀ (s u : State) (i : Instr), fetches s → decodeWord s.fetchWord = .ok i → exec i (handlerStart s) = .next u →
    (u.halted = false →
      ∃ t, tick s = .next t ∧
        t.dt.toNat = (if s.updateTimers then u.dt.toNat - 1 else u.dt.toNat) ∧
        t.st.toNat = (if s.updateTimers then u.st.toNat - 1 else u.st.toNat) ∧
        t.renderReqs = s.renderReqs + 1 ∧ sameExcept [.dt, .st, .renderReqs] u t) ∧
    (u.halted = true → tick s = .next u)

/-- R262, R293, U8, U12, U13 (faults are next states: D19, log 8; loads: D22, log 3; the queue's capacity is the
parameter UQ_CAP, D16, log 6): with an unbounded queue and no `load` among the announced moves every step answers a
next state; a step never answers a fault outcome; one that is refused is refused at a load before its tick, made
when `load` is closed or of more than 3584 bytes, or at an SKP or SKNP whose check has no result because the pending
keys do not fit a finite queue. -/
def Obligations.OnlyLoadsAndAFullQueueAreRefused : Prop :=
  (∀ s : State, s.params.uqCap = none → (∀ image : List Byte, HostMove.load image ∉ s.host) → ∃ t, step s = .next t) ∧
  (∀ (s : State) (f : Fault), step s ≠ .fault f) ∧
  (∀ (s : State) (r : Refusal), step s = .refused r →
    (∃ (pre post : List HostMove) (image : List Byte) (u : State),
      s.host = pre ++ .load image :: post ∧ (∀ b, HostMove.tick b ∉ pre) ∧ hostMoves pre s = .next u ∧
      ((r = .loadNotOpen ∧ u.loadOpen = false) ∨
       (r = .imageTooLong ∧ u.loadOpen = true ∧ 3584 < image.length))) ∨
    (∃ (u : State) (x : Reg), r = .queueFull ∧ s.hostTurn = .next u ∧ fetches u ∧
      (decodeWord u.fetchWord = .ok (.skp x) ∨ decodeWord u.fetchWord = .ok (.sknp x)) ∧
      checkIfPressed u.params.uqCap (u.reg x) u = none ∧
      ¬ roomFor u.params.uqCap u.uq.length (keysOf u.raw).length))

/-! ## Reset and load -/

/-- R8, R31, R40, R290: what reset leaves, at every value of the parameters (log 26), `State.reset` being the one at the
defaults (queue unbounded: D16, log 6; VF_ORDER flag first: D5, log 10). The source states the font's presence and
its glyph A, the zeroed registers and the pc; the zeroes of the timers, framebuffer, queue, exit flag, stack slots
and of memory 0x050 to 0x1FF are the spec's decision D10 (log 7), the halted state is D19 (log 8). -/
def Obligations.ResetLeavesTheListedValues : Prop :=
  State.resetWith Config.defaults = State.reset ∧ Config.defaults.font.hasGlyphA = true ∧
  Config.defaults.uqCap = none ∧ Config.defaults.vfOrder = .flagThenResult ∧
  ∀ (p : Params) (s : State), s = State.resetWith p →
    s.params = p ∧ (∀ (a : Nat) (h : a < 80), s.read a = p.font[a]) ∧ (∀ a, 80 ≤ a → s.read a = 0) ∧
    (p.font.hasGlyphA = true → s.readBytes 50 5 = [0xF0, 0x90, 0xF0, 0x90, 0x90]) ∧
    (∀ r, s.reg r = 0) ∧ s.i = 0 ∧ s.pc = 0x200 ∧ s.sp = 0 ∧ (∀ j, s.slot j = 0) ∧ s.dt = 0 ∧ s.st = 0 ∧
    (∀ r c, s.fb.pixel r c = false) ∧ s.uq = [] ∧ s.exitFlag = false ∧ s.halted = false ∧ s.fault = none

/-- R21, R40, R290 (decision D10, logs 4, 7): the host's reset puts every piece of the core at its reset value from any
state, halted or not, and leaves the parameters (log 26), the environment's stream and the port fields `host`,
`updateTimers`, `draws` and `renderReqs`. -/
def Obligations.HostResetRestoresTheCore : Prop :=
  ∀ s : State,
    sameExcept [.raw, .updateTimers, .host, .draws, .renderReqs] (State.resetWith s.params) s.hostReset ∧
    s.hostReset.params = s.params ∧ s.hostReset.raw = s.raw ∧ s.hostReset.host = s.host ∧
    s.hostReset.updateTimers = s.updateTimers ∧ s.hostReset.draws = s.draws ∧ s.hostReset.renderReqs = s.renderReqs

/-- R293 (decision D22, log 3): a load that may be made copies the image verbatim to 0x200, leaves every other byte,
changes nothing else and closes `load`; one that may not be made is refused by name. -/
def Obligations.LoadCopiesTheImage : Prop :=
  (∀ (s : State) (image : List Byte), s.memWf = true → s.loadOpen = true → image.length ≤ 3584 →
    ∃ t, State.load image s = .next t ∧
      (∀ (k : Nat) (h : k < image.length), t.read (0x200 + k) = image[k]) ∧
      memExcept 0x200 image.length s t ∧ t.loadOpen = false ∧ sameExcept [.mem, .loadOpen] s t) ∧
  (∀ (s : State) (image : List Byte), s.loadOpen = false → State.load image s = .refused .loadNotOpen) ∧
  (∀ (s : State) (image : List Byte), s.loadOpen = true → 3584 < image.length →
    State.load image s = .refused .imageTooLong)

/-- R62, R291, R292 (byte order: decision D1, log 16): after reset and the load of an image of at least two bytes,
whatever the parameters, the first tick fetches the image's first two bytes at 0x200, the first one as the high
byte, and runs that word. -/
def Obligations.FirstInstructionIsAtTheProgramBase : Prop :=
  ∀ (p : Params) (image : List Byte) (b0 b1 : Byte) (b : Bool) (ms : List HostMove), image.length + 2 ≤ 3584 →
    ∃ t, ((State.resetWith p).setHost (.load (b0 :: b1 :: image) :: .tick b :: ms)).hostTurn = .next t ∧
      t.pc = 0x200 ∧ t.halted = false ∧ t.updateTimers = b ∧
      t.fetchWord.toNat = b0.toNat * 256 + b1.toNat ∧ tick t = runWord t.fetchWord (handlerStart t)

/-! ## What every instruction leaves unchanged -/

/-- R13 (decision D11, log 20) with R23, R140, R160, R190: every instruction answers a next state (a fault is one: D19,
log 8), SKP and SKNP when the queue is unbounded (D16, log 6; with a finite one see KeySkipsFollowTheCheck), and in
whatever next state it answers only the parts `mayWrite` lists, only the registers `regsWritten` lists, and only the
bytes it stores to can differ. -/
def Obligations.EveryInstructionKeepsItsFrame : Prop :=
  ∀ (i : Instr) (s : State),
    ((∀ x : Reg, i ≠ .skp x ∧ i ≠ .sknp x) ∨ s.params.uqCap = none → ∃ t, exec i s = .next t) ∧
    ∀ t, exec i s = .next t →
      sameExcept (mayWrite i) s t ∧ regsExcept (regsWritten i) s t ∧ memExcept (storeBase s) (storeCount i) s t

/-- R261, R262, R264 (decisions D3, D4, D19; logs 8, 11, 12): a fault is precise, and these are the only ones: if an
instruction halts a running core, nothing but `halted` and `fault` has changed, and it is RET at SP = 0, CALL at SP
= 15, or one of the four memory instructions with its highest effective address above 0xFFF. The cause codes of
R261, 1 to 4, are the spec's own (D19, log 8): the source gives none. -/
def Obligations.InstructionFaultsArePrecise : Prop :=
  (∀ (w addr : Word) (a : Nat), (Fault.illegalInstruction w addr).code = 1 ∧ (Fault.stackOverflow addr).code = 2 ∧
    (Fault.stackUnderflow addr).code = 3 ∧ (Fault.addressOutOfRange a).code = 4) ∧
  ∀ (i : Instr) (s t : State), s.halted = false → exec i s = .next t → t.halted = true →
    sameExcept [.halted, .fault] s t ∧
    ((i = .ret ∧ s.sp = 0 ∧ t.fault = some (.stackUnderflow (s.pc - 2))) ∨
     (∃ aaa, i = .call aaa ∧ s.sp = 15 ∧ t.fault = some (.stackOverflow (s.pc - 2))) ∨
     (t.fault = some (.addressOutOfRange (max s.i.toNat 0x1000)) ∧
      ((∃ x y n, i = .drw x y n ∧ 0 < n.toNat ∧ 0xFFF < s.i.toNat + n.toNat - 1) ∨
       (∃ x, i = .ldB x ∧ 0xFFF < s.i.toNat + 2) ∨
       (∃ x, i = .ldMemVx x ∧ 0xFFF < s.i.toNat + x.toNat) ∨
       (∃ x, i = .ldVxMem x ∧ 0xFFF < s.i.toNat + x.toNat))))

/-- R66, R67, R195, R262 (decisions D3, D19; logs 8, 12): each of the four memory instructions whose highest effective
address is above 0xFFF raises AddressOutOfRange with the lowest out-of-range address and changes nothing else; with
its whole range inside memory (or, for DRW, empty) it raises nothing. -/
def Obligations.MemoryInstructionsFaultPastTheEnd : Prop :=
  (∀ (i : Instr) (s : State),
    ((∃ x y n, i = .drw x y n ∧ 0 < n.toNat ∧ 0xFFF < s.i.toNat + n.toNat - 1) ∨
     (∃ x, i = .ldB x ∧ 0xFFF < s.i.toNat + 2) ∨
     (∃ x, i = .ldMemVx x ∧ 0xFFF < s.i.toNat + x.toNat) ∨
     (∃ x, i = .ldVxMem x ∧ 0xFFF < s.i.toNat + x.toNat)) →
    ∃ t, exec i s = .next t ∧ t.halted = true ∧
      t.fault = some (.addressOutOfRange (max s.i.toNat 0x1000)) ∧ sameExcept [.halted, .fault] s t) ∧
  (∀ (i : Instr) (s : State),
    ((∃ x y n, i = .drw x y n ∧ (n.toNat = 0 ∨ s.i.toNat + n.toNat - 1 ≤ 0xFFF)) ∨
     (∃ x, i = .ldB x ∧ s.i.toNat + 2 ≤ 0xFFF) ∨
     (∃ x, i = .ldMemVx x ∧ s.i.toNat + x.toNat ≤ 0xFFF) ∨
     (∃ x, i = .ldVxMem x ∧ s.i.toNat + x.toNat ≤ 0xFFF)) →
    ∃ t, exec i s = .next t ∧ t.halted = s.halted ∧ t.fault = s.fault)

/-! ## SYS and control transfer -/

/-- R128: 0nnn other than 00E0 and 00EE is SYS, near misses included, and a tick that runs it advances the pc by 2 and,
timers aside, changes nothing (of the model's own fields, the render count moves and `load` is closed). -/
def Obligations.SysIsANoOp : Prop :=
  (∀ w : Word, w &&& 0xF000 = 0x0000 → w ≠ 0x00E0 → w ≠ 0x00EE → decodeWord w = .ok (.sys (aaaField w))) ∧
  (∀ (aaa : Imm12) (s : State), exec (.sys aaa) s = .next s) ∧
  (∀ s : State, fetches s → s.fetchWord &&& 0xF000 = 0x0000 → s.fetchWord ≠ 0x00E0 → s.fetchWord ≠ 0x00EE →
    ∃ t, tick s = .next t ∧ t.pc.toNat = s.pc.toNat + 2 ∧
      sameExcept [.pc, .dt, .st, .renderReqs, .loadOpen] s t)

/-- R141: JP aaa sets the pc to aaa, whatever aaa is; no flag, no fault. -/
def Obligations.JumpGoesToItsTarget : Prop :=
  readsAs 0xF000 0x1000 (fun w => .jp (aaaField w)) ∧
  ∀ (aaa : Imm12) (s : State),
    ∃ t, exec (.jp aaa) s = .next t ∧ t.pc.toNat = aaa.toNat ∧ noFaultNoFlag s t

/-- R144: JP V0,aaa sets the pc to V0 + aaa, always V0, not reduced to 12 bits; no flag, no fault. -/
def Obligations.JumpV0AddsV0 : Prop :=
  readsAs 0xF000 0xB000 (fun w => .jpV0 (aaaField w)) ∧
  ∀ (aaa : Imm12) (s : State),
    ∃ t, exec (.jpV0 aaa) s = .next t ∧ t.pc.toNat = (s.reg 0).toNat + aaa.toNat ∧ noFaultNoFlag s t

/-- R145, R146: SE Vx,kk skips exactly when Vx = kk, SNE Vx,kk exactly when it is not; no flag, no fault. -/
def Obligations.SkipOnImmediate : Prop :=
  readsAs 0xF000 0x3000 (fun w => .seImm (xField w) (kkField w)) ∧
  readsAs 0xF000 0x4000 (fun w => .sneImm (xField w) (kkField w)) ∧
  ∀ (x : Reg) (kk : Byte) (s : State),
    (∃ t, exec (.seImm x kk) s = .next t ∧ t.pc = (if s.reg x = kk then s.pc + 2 else s.pc) ∧ noFaultNoFlag s t) ∧
    (∃ t, exec (.sneImm x kk) s = .next t ∧ t.pc = (if s.reg x = kk then s.pc else s.pc + 2) ∧ noFaultNoFlag s t)

/-- R147, R148: SE Vx,Vy skips exactly when the registers are equal (with x = y always), SNE Vx,Vy exactly when they
differ (with x = y never); no flag, no fault; a low nibble other than 0 is illegal (strict matching: decision D23,
log 24). -/
def Obligations.SkipOnRegisters : Prop :=
  readsAs 0xF00F 0x5000 (fun w => .seReg (xField w) (yField w)) ∧
  readsAs 0xF00F 0x9000 (fun w => .sneReg (xField w) (yField w)) ∧
  (∀ w : Word, opField w = 0x5 ∨ opField w = 0x9 → nField w ≠ 0 → ∃ e, decodeWord w = .error e) ∧
  ∀ (x y : Reg) (s : State),
    (∃ t, exec (.seReg x y) s = .next t ∧ t.pc = (if s.reg x = s.reg y then s.pc + 2 else s.pc) ∧ noFaultNoFlag s t) ∧
    (∃ t, exec (.sneReg x y) s = .next t ∧ t.pc = (if s.reg x = s.reg y then s.pc else s.pc + 2) ∧ noFaultNoFlag s t)

/-- R96, R142 (StackOverflow at SP = 15 is the spec's decision D4, log 11): 2aaa is CALL; with SP below 15 CALL pushes
the advanced pc, raises SP by one and goes to aaa, the other slots unchanged; with SP = 15 it halts with its own
address and no slot, SP or pc changed. -/
def Obligations.CallPushesTheReturnAddress : Prop :=
  readsAs 0xF000 0x2000 (fun w => .call (aaaField w)) ∧
  ∀ (aaa : Imm12) (s : State),
    (s.sp ≠ 15 → ∃ t, exec (.call aaa) s = .next t ∧ t.slot s.sp = s.pc ∧ t.sp.toNat = s.sp.toNat + 1 ∧
      t.pc.toNat = aaa.toNat ∧ (∀ j, j ≠ s.sp → t.slot j = s.slot j) ∧ noFaultNoFlag s t) ∧
    (s.sp = 15 → ∃ t, exec (.call aaa) s = .next t ∧ t.halted = true ∧
      t.fault = some (.stackOverflow (s.pc - 2)) ∧ sameExcept [.halted, .fault] s t)

/-- R96, R143 (StackUnderflow at SP = 0 is the spec's decision D4, log 11): 00EE is RET; with SP above 0 RET lowers SP
by one and goes to the whole 16-bit value of that slot, every slot unchanged; with SP = 0 it halts with its own
address and nothing else changed. -/
def Obligations.ReturnPopsTheReturnAddress : Prop :=
  decodeWord 0x00EE = .ok .ret ∧
  ∀ s : State,
    (s.sp ≠ 0 → ∃ t, exec .ret s = .next t ∧ t.sp.toNat + 1 = s.sp.toNat ∧ t.pc = s.slot t.sp ∧
      (∀ j, t.slot j = s.slot j) ∧ noFaultNoFlag s t) ∧
    (s.sp = 0 → ∃ t, exec .ret s = .next t ∧ t.halted = true ∧
      t.fault = some (.stackUnderflow (s.pc - 2)) ∧ sameExcept [.halted, .fault] s t)

/-- R150: from a running state with SP below 15, a tick on CALL aaa and, where the word at aaa is 0x00EE, the next tick
come back to the instruction after the CALL with SP as it was; only the stack slot at SP has changed (and the
timers, and the model's own render count and load mark). -/
def Obligations.CallThenReturnComesBack : Prop :=
  ∀ (s : State) (aaa : Imm12), fetches s → s.sp ≠ 15 → s.fetchWord = encode (.call aaa) → aaa.toNat ≤ 0xFFE →
    wordOfBytes (s.read aaa.toNat) (s.read (aaa.toNat + 1)) = 0x00EE →
    ∃ u t, tick s = .next u ∧ tick u = .next t ∧ t.pc.toNat = s.pc.toNat + 2 ∧ t.sp = s.sp ∧
      (∀ j, j ≠ s.sp → t.slot j = s.slot j) ∧
      sameExcept [.pc, .stack, .dt, .st, .renderReqs, .loadOpen] s t

/-! ## Loads and the ALU -/

/-- R162, R164 (that 8xy0 is LD is decision D8, log 18): LD Vx,kk and LD Vx,Vy put the immediate or the source
register's value into Vx; VF changes only as the destination; no fault. -/
def Obligations.LoadsSetTheDestination : Prop :=
  readsAs 0xF000 0x6000 (fun w => .ldImm (xField w) (kkField w)) ∧
  readsAs 0xF00F 0x8000 (fun w => .ldReg (xField w) (yField w)) ∧
  ∀ (x y : Reg) (kk : Byte) (s : State),
    (∃ t, exec (.ldImm x kk) s = .next t ∧ t.reg x = kk ∧ (x ≠ vf → noFaultNoFlag s t) ∧
      t.halted = s.halted ∧ t.fault = s.fault) ∧
    (∃ t, exec (.ldReg x y) s = .next t ∧ t.reg x = s.reg y ∧ (x ≠ vf → noFaultNoFlag s t) ∧
      t.halted = s.halted ∧ t.fault = s.fault)

/-- R163: ADD Vx,kk adds modulo 256 and writes no flag, even when the sum exceeds 255, unless VF is the destination. -/
def Obligations.AddImmediateWrapsWithoutFlag : Prop :=
  readsAs 0xF000 0x7000 (fun w => .addImm (xField w) (kkField w)) ∧
  ∀ (x : Reg) (kk : Byte) (s : State),
    ∃ t, exec (.addImm x kk) s = .next t ∧ (t.reg x).toNat = ((s.reg x).toNat + kk.toNat) % 256 ∧
      (x ≠ vf → noFaultNoFlag s t) ∧ t.halted = s.halted ∧ t.fault = s.fault

/-- R165, R166, R167 (the function nibbles are decision D8, log 18; that VF is kept is listed under D11, log 20): OR,
AND and XOR are bitwise on Vx and Vy and leave VF alone unless it is the destination. -/
def Obligations.LogicIsBitwiseWithoutFlag : Prop :=
  readsAs 0xF00F 0x8001 (fun w => .orReg (xField w) (yField w)) ∧
  readsAs 0xF00F 0x8002 (fun w => .andReg (xField w) (yField w)) ∧
  readsAs 0xF00F 0x8003 (fun w => .xorReg (xField w) (yField w)) ∧
  ∀ (x y : Reg) (s : State),
    (∃ t, exec (.orReg x y) s = .next t ∧
      (∀ b, (t.reg x).getLsbD b = ((s.reg x).getLsbD b || (s.reg y).getLsbD b)) ∧
      (x ≠ vf → noFaultNoFlag s t) ∧ t.halted = s.halted ∧ t.fault = s.fault) ∧
    (∃ t, exec (.andReg x y) s = .next t ∧
      (∀ b, (t.reg x).getLsbD b = ((s.reg x).getLsbD b && (s.reg y).getLsbD b)) ∧
      (x ≠ vf → noFaultNoFlag s t) ∧ t.halted = s.halted ∧ t.fault = s.fault) ∧
    (∃ t, exec (.xorReg x y) s = .next t ∧
      (∀ b, (t.reg x).getLsbD b = ((s.reg x).getLsbD b ^^ (s.reg y).getLsbD b)) ∧
      (x ≠ vf → noFaultNoFlag s t) ∧ t.halted = s.halted ∧ t.fault = s.fault)

/-- R96, R161, R168: 8xy4 is ADD Vx,Vy (function nibble: D8, log 18); it puts the sum modulo 256 into Vx and the carry
into VF, both from the old operands, y = F included. With x = F the one written second by VF_ORDER stays (parameter,
U5; its default, flag first, is the spec's decision D5, log 10). -/
def Obligations.AddSetsTheCarry : Prop :=
  readsAs 0xF00F 0x8004 (fun w => .addReg (xField w) (yField w)) ∧
  ∀ (x y : Reg) (s : State), ∃ t, exec (.addReg x y) s = .next t ∧
    (x ≠ vf ∨ s.params.vfOrder = .flagThenResult → (t.reg x).toNat = ((s.reg x).toNat + (s.reg y).toNat) % 256) ∧
    (x ≠ vf ∨ s.params.vfOrder = .resultThenFlag →
      t.reg vf = if (s.reg x).toNat + (s.reg y).toNat > 255 then 1 else 0) ∧
    t.halted = s.halted ∧ t.fault = s.fault

/-- R96, R161, R169, R171: 8xy5 is SUB, 8xy7 is SUBN (function nibbles: D8, log 18). SUB puts (Vx - Vy) mod 256 into Vx
and 1 into VF exactly when Vx >= Vy, else 0; SUBN puts (Vy - Vx) mod 256 and 1 exactly when Vy >= Vx. With x = F the
one written second by VF_ORDER stays (parameter, U5; its default, flag first, is the spec's decision D5, log 10). -/
def Obligations.SubtractionsSetNotBorrow : Prop :=
  readsAs 0xF00F 0x8005 (fun w => .subReg (xField w) (yField w)) ∧
  readsAs 0xF00F 0x8007 (fun w => .subn (xField w) (yField w)) ∧
  ∀ (x y : Reg) (s : State),
    (∃ t, exec (.subReg x y) s = .next t ∧
      (x ≠ vf ∨ s.params.vfOrder = .flagThenResult → t.reg x = s.reg x - s.reg y) ∧
      (x ≠ vf ∨ s.params.vfOrder = .resultThenFlag →
        t.reg vf = if (s.reg y).toNat ≤ (s.reg x).toNat then 1 else 0) ∧
      t.halted = s.halted ∧ t.fault = s.fault) ∧
    (∃ t, exec (.subn x y) s = .next t ∧
      (x ≠ vf ∨ s.params.vfOrder = .flagThenResult → t.reg x = s.reg y - s.reg x) ∧
      (x ≠ vf ∨ s.params.vfOrder = .resultThenFlag →
        t.reg vf = if (s.reg x).toNat ≤ (s.reg y).toNat then 1 else 0) ∧
      t.halted = s.halted ∧ t.fault = s.fault)

/-- R96, R161, R170, R172: 8xy6 is SHR, 8xyE is SHL (function nibbles: D8, log 18). SHR halves Vx and SHL doubles it
modulo 256, VF is the bit shifted out, and y plays no part. With x = F the one written second by VF_ORDER stays
(parameter, U5; its default, flag first, is the spec's decision D5, log 10). -/
def Obligations.ShiftsPutTheLostBitInTheFlag : Prop :=
  readsAs 0xF00F 0x8006 (fun w => .shr (xField w) (yField w)) ∧
  readsAs 0xF00F 0x800E (fun w => .shl (xField w) (yField w)) ∧
  ∀ (x y : Reg) (s : State),
    (∃ t, exec (.shr x y) s = .next t ∧
      (x ≠ vf ∨ s.params.vfOrder = .flagThenResult → (t.reg x).toNat = (s.reg x).toNat / 2) ∧
      (x ≠ vf ∨ s.params.vfOrder = .resultThenFlag → (t.reg vf).toNat = (s.reg x).toNat % 2) ∧
      t.halted = s.halted ∧ t.fault = s.fault ∧ ∀ y', exec (.shr x y') s = .next t) ∧
    (∃ t, exec (.shl x y) s = .next t ∧
      (x ≠ vf ∨ s.params.vfOrder = .flagThenResult → (t.reg x).toNat = (s.reg x).toNat * 2 % 256) ∧
      (x ≠ vf ∨ s.params.vfOrder = .resultThenFlag → (t.reg vf).toNat = (s.reg x).toNat / 128) ∧
      t.halted = s.halted ∧ t.fault = s.fault ∧ ∀ y', exec (.shl x y') s = .next t)

/-- R96, R173 (the byte is a free value, decision D17, log 2): Cxkk is RND, which puts the next random byte, masked with
kk, into Vx, so bits where kk has a 0 are 0, and advances to a fresh one. It holds for every value of `draws`. -/
def Obligations.RandomIsMasked : Prop :=
  readsAs 0xF000 0xC000 (fun w => .rnd (xField w) (kkField w)) ∧
  ∀ (x : Reg) (kk : Byte) (s : State), ∃ t, exec (.rnd x kk) s = .next t ∧
    t.reg x = Config.rnd s.draws &&& kk ∧ (∀ b, kk.getLsbD b = false → (t.reg x).getLsbD b = false) ∧
    t.draws = s.draws + 1 ∧ t.halted = s.halted ∧ t.fault = s.fault

/-! ## Index register and memory -/

/-- R191: LD I,aaa sets I to aaa with its upper four bits 0; no flag, no fault. -/
def Obligations.IndexIsLoaded : Prop :=
  readsAs 0xF000 0xA000 (fun w => .ldI (aaaField w)) ∧
  ∀ (aaa : Imm12) (s : State), ∃ t, exec (.ldI aaa) s = .next t ∧ t.i.toNat = aaa.toNat ∧ noFaultNoFlag s t

/-- R96, R192 (the wrap at 65536 is the spec's decision D20, log 23): Fx1E is ADD I,Vx, which adds modulo 65536, is not
masked to 12 bits, and writes no flag. -/
def Obligations.IndexAddWrapsWithoutFlag : Prop :=
  readsAs 0xF0FF 0xF01E (fun w => .addI (xField w)) ∧
  ∀ (x : Reg) (s : State), ∃ t, exec (.addI x) s = .next t ∧
    t.i.toNat = (s.i.toNat + (s.reg x).toNat) % 65536 ∧ noFaultNoFlag s t

/-- R193 (with R31): LD F,Vx sets I to five times the low nibble of Vx, in 0..75, and reads no memory; no flag, no
fault. For digit 0xA that is 50, where reset memory, at any FONT with the source's glyph A (R8), holds F0 90 F0 90
90. -/
def Obligations.IndexPointsAtTheGlyph : Prop :=
  readsAs 0xF0FF 0xF029 (fun w => .ldF (xField w)) ∧
  (∀ (x : Reg) (s : State), ∃ t, exec (.ldF x) s = .next t ∧ t.i.toNat = (s.reg x).toNat % 16 * 5 ∧
    t.i.toNat ≤ 75 ∧ noFaultNoFlag s t ∧ ∀ m : Memory, exec (.ldF x) { s with mem := m } = .next { t with mem := m }) ∧
  ∀ p : Params, p.font.hasGlyphA = true →
    (State.resetWith p).readBytes (0xA * 5) 5 = [0xF0, 0x90, 0xF0, 0x90, 0x90]

/-- R96, R195, R197 (what happens past the end is decision D3, stated separately): Fx33 is LD B,Vx; with I at most 0xFFD
it stores the three decimal digits of Vx at I, I+1, I+2, hundreds first, each a digit's value; no other byte
changes, nor I or a register. -/
def Obligations.DecimalDigitsAreStored : Prop :=
  readsAs 0xF0FF 0xF033 (fun w => .ldB (xField w)) ∧
  ∀ (x : Reg) (s : State), s.memWf = true → s.i.toNat ≤ 0xFFD →
    ∃ t, exec (.ldB x) s = .next t ∧
      (t.read s.i.toNat).toNat = (s.reg x).toNat / 100 ∧
      (t.read (s.i.toNat + 1)).toNat = (s.reg x).toNat / 10 % 10 ∧
      (t.read (s.i.toNat + 2)).toNat = (s.reg x).toNat % 10 ∧
      memExcept s.i.toNat 3 s t ∧ sameExcept [.mem] s t

/-- R96, R196, R198 (I unchanged: decision D11, log 20): Fx55 is LD [I],Vx; with I + x inside memory it stores V0 to Vx
at I to I + x, V0 first; no other byte changes, nor I or a register. -/
def Obligations.RegisterBlockIsStored : Prop :=
  readsAs 0xF0FF 0xF055 (fun w => .ldMemVx (xField w)) ∧
  ∀ (x : Reg) (s : State), s.memWf = true → s.i.toNat + x.toNat ≤ 0xFFF →
    ∃ t, exec (.ldMemVx x) s = .next t ∧
      (∀ r : Reg, r.toNat ≤ x.toNat → t.read (s.i.toNat + r.toNat) = s.reg r) ∧
      memExcept s.i.toNat (x.toNat + 1) s t ∧ sameExcept [.mem] s t

/-- R96, R196, R199 (I unchanged: decision D11, log 20): Fx65 is LD Vx,[I]; with I + x inside memory it loads V0 to Vx
from I to I + x; registers above Vx, I and memory are unchanged. -/
def Obligations.RegisterBlockIsLoaded : Prop :=
  readsAs 0xF0FF 0xF065 (fun w => .ldVxMem (xField w)) ∧
  ∀ (x : Reg) (s : State), s.i.toNat + x.toNat ≤ 0xFFF →
    ∃ t, exec (.ldVxMem x) s = .next t ∧
      (∀ r : Reg, r.toNat ≤ x.toNat → t.reg r = s.read (s.i.toNat + r.toNat)) ∧
      (∀ r : Reg, x.toNat < r.toNat → t.reg r = s.reg r) ∧ sameExcept [.regs] s t

/-- R62, R73, R198 (byte order: decision D1, log 16): bytes stored by LD [I],Vx where the next instruction is fetched
are the word that fetch sees: the even-placed register is its high byte. -/
def Obligations.StoredBytesAreFetched : Prop :=
  ∀ (x r q : Reg) (s : State), s.memWf = true → s.i.toNat + x.toNat ≤ 0xFFF →
    q.toNat = r.toNat + 1 → q.toNat ≤ x.toNat → s.pc.toNat = s.i.toNat + r.toNat →
    ∃ t, exec (.ldMemVx x) s = .next t ∧ t.pc = s.pc ∧ t.fetchWord.toNat = (s.reg r).toNat * 256 + (s.reg q).toNat

/-- The model's memory (log 25): canonical memories that read the same everywhere are the same list, whatever FONT is,
so comparing states compares what R30 gives. -/
def Obligations.EqualReadsMeanEqualMemory : Prop :=
  ∀ (font : Font) (m n : Memory), m.wf font = true → n.wf font = true → (∀ a, m.read font a = n.read font a) → m = n

/-! ## Display -/

/-- R211, R215: CLS makes every pixel 0, VF and the faults untouched. That nothing else changes is R13's reading by
decision D11 (log 20). -/
def Obligations.ClearMakesEveryPixelZero : Prop :=
  decodeWord 0x00E0 = .ok .cls ∧
  ∀ s : State, ∃ t, exec .cls s = .next t ∧ (∀ r c, t.fb.pixel r c = false) ∧ sameExcept [.fb] s t

/-- R212, R213: `draw_sprite` toggles exactly the pixels under a set bit of the sprite, rows wrapping modulo 32 and
columns modulo 64, and reports a collision exactly when one of them was 1. -/
def Obligations.SpriteTogglesTheCoveredPixels : Prop :=
  ∀ (x y : Nat) (bytes : List Byte) (f : Framebuffer), bytes.length ≤ 15 →
    (∀ r c, r < 32 → c < 64 →
      (covers x y bytes r c → (drawSprite x y bytes f).1.pixel r c = !f.pixel r c) ∧
      (¬ covers x y bytes r c → (drawSprite x y bytes f).1.pixel r c = f.pixel r c)) ∧
    ((drawSprite x y bytes f).2 = true ↔ ∃ r c, covers x y bytes r c ∧ f.pixel r c = true)

/-- R67, R96, R216 (the sprite read at I is the spec's decision D6, log 17; an empty range cannot fault, D3): Dxyn is
DRW; with n = 0 or the n bytes from I inside memory, DRW draws them at column Vx, row Vy, both read before VF is
written, puts the collision flag 0 or 1 into VF, and changes nothing else. -/
def Obligations.DrawPutsTheCollisionInTheFlag : Prop :=
  readsAs 0xF000 0xD000 (fun w => .drw (xField w) (yField w) (nField w)) ∧
  ∀ (x y : Reg) (n : Nibble) (s : State), n.toNat = 0 ∨ s.i.toNat + n.toNat - 1 ≤ 0xFFF →
    ∃ t, exec (.drw x y n) s = .next t ∧
      t.fb = (drawSprite (s.reg x).toNat (s.reg y).toNat
        ((List.range n.toNat).map fun k => s.read (s.i.toNat + k)) s.fb).1 ∧
      t.reg vf = (if (drawSprite (s.reg x).toNat (s.reg y).toNat
        ((List.range n.toNat).map fun k => s.read (s.i.toNat + k)) s.fb).2 then 1 else 0) ∧
      (n = 0 → (∀ r c, t.fb.pixel r c = s.fb.pixel r c) ∧ t.reg vf = 0) ∧
      regsExcept [vf] s t ∧ sameExcept [.fb, .regs] s t

/-- R213, R217 (C10): drawing the same sprite twice at the same place restores the framebuffer, whatever it was; if
every pixel under a set bit of the sprite was 0 before, the second draw reports a collision exactly when the sprite
has a set bit. -/
def Obligations.DrawingTwiceRestores : Prop :=
  ∀ (x y : Nat) (bytes : List Byte) (f : Framebuffer), bytes.length ≤ 15 →
    (drawSprite x y bytes (drawSprite x y bytes f).1).1 = f ∧
    ((∀ r c, covers x y bytes r c → f.pixel r c = false) →
      ((drawSprite x y bytes (drawSprite x y bytes f).1).2 = true ↔ ∃ b ∈ bytes, b ≠ 0))

/-- R214 (the row-major order is the spec's decision D18, log 15): `render` yields 2048 triples, the k-th being row k /
64, column k mod 64 and that pixel. -/
def Obligations.RenderYieldsEveryPixelInOrder : Prop :=
  ∀ s : State, s.render.length = 2048 ∧
    ∀ k, k < 2048 → s.render[k]? = some (k / 64, k % 64, s.fb.pixel (k / 64) (k % 64))

/-! ## Input and timers -/

/-- R231 (when Exit is seen: decision D14, log 22; the capacity is the parameter UQ_CAP, D16, U8, log 6): a match in the
queue drops everything up to and including the first one and leaves `raw`; else a match in `raw` consumes `raw` up
to it and clears the queue; else `raw` is emptied and its keys are appended. An Exit consumed on the way sets the
flag. Where the keys to append do not fit a finite queue there is no result. -/
def Obligations.KeyCheckConsumesUpToTheMatch : Prop :=
  (∀ (cap : Option Nat) (e : Byte) (s : State) (pre post : List Nibble) (k : Nibble), s.uq = pre ++ k :: post →
    k.setWidth 8 = e → (∀ q ∈ pre, q.setWidth 8 ≠ e) →
    checkIfPressed cap e s = some ⟨true, post, s.raw, s.exitFlag⟩) ∧
  (∀ (cap : Option Nat) (e : Byte) (s : State) (pre post : List RawEvent) (k : Nibble),
    (∀ q ∈ s.uq, q.setWidth 8 ≠ e) → s.raw = pre ++ .key k :: post → k.setWidth 8 = e →
    (∀ q ∈ keysOf pre, q.setWidth 8 ≠ e) → roomFor cap s.uq.length (keysOf pre).length →
    checkIfPressed cap e s = some ⟨true, [], post, s.exitFlag || decide (RawEvent.exit ∈ pre)⟩) ∧
  (∀ (cap : Option Nat) (e : Byte) (s : State), (∀ q ∈ s.uq, q.setWidth 8 ≠ e) →
    (∀ q ∈ keysOf s.raw, q.setWidth 8 ≠ e) → roomFor cap s.uq.length (keysOf s.raw).length →
    checkIfPressed cap e s =
      some ⟨false, s.uq ++ keysOf s.raw, [], s.exitFlag || decide (RawEvent.exit ∈ s.raw)⟩) ∧
  (∀ (cap : Option Nat) (e : Byte) (s : State) (pre post : List RawEvent), (∀ q ∈ s.uq, q.setWidth 8 ≠ e) →
    s.raw = pre ++ post → (∀ q ∈ keysOf pre, q.setWidth 8 ≠ e) → ¬ roomFor cap s.uq.length (keysOf pre).length →
    checkIfPressed cap e s = none)

/-- R96, R235, R236, U8: Ex9E is SKP, ExA1 is SKNP; they run the key check on the whole value of Vx and leave what it
leaves, whether or not they skip; SKP skips on a hit, SKNP on a miss; no flag, no fault. With an unbounded queue
(UQ_CAP at the spec's default, D16, log 6) the check has a result; where it has none, a finite queue being full,
both are refused. -/
def Obligations.KeySkipsFollowTheCheck : Prop :=
  readsAs 0xF0FF 0xE09E (fun w => .skp (xField w)) ∧
  readsAs 0xF0FF 0xE0A1 (fun w => .sknp (xField w)) ∧
  ∀ (x : Reg) (s : State),
    (∀ c, checkIfPressed s.params.uqCap (s.reg x) s = some c →
      (∃ t, exec (.skp x) s = .next t ∧ t.pc = (if c.hit then s.pc + 2 else s.pc) ∧ t.uq = c.uq ∧
        t.raw = c.raw ∧ t.exitFlag = c.exitFlag ∧ noFaultNoFlag s t) ∧
      (∃ t, exec (.sknp x) s = .next t ∧ t.pc = (if c.hit then s.pc else s.pc + 2) ∧ t.uq = c.uq ∧
        t.raw = c.raw ∧ t.exitFlag = c.exitFlag ∧ noFaultNoFlag s t)) ∧
    (s.params.uqCap = none → ∃ c, checkIfPressed s.params.uqCap (s.reg x) s = some c) ∧
    (checkIfPressed s.params.uqCap (s.reg x) s = none →
      exec (.skp x) s = .refused .queueFull ∧ exec (.sknp x) s = .refused .queueFull)

/-- R232 (no masking is the spec's decision D12, log 14): with Vx at least 16 SKP never skips and SKNP always does, and
both drain `raw` into the queue, where its keys fit (always in an unbounded one: D16, log 6). -/
def Obligations.NoKeyAboveFifteen : Prop :=
  ∀ (x : Reg) (s : State), 16 ≤ (s.reg x).toNat → roomFor s.params.uqCap s.uq.length (keysOf s.raw).length →
    (∃ t, exec (.skp x) s = .next t ∧ t.pc = s.pc ∧ t.uq = s.uq ++ keysOf s.raw ∧ t.raw = []) ∧
    (∃ t, exec (.sknp x) s = .next t ∧ t.pc = s.pc + 2 ∧ t.uq = s.uq ++ keysOf s.raw ∧ t.raw = [])

/-- R238: a key that a check did not match remains available: after a check that failed, a check for any key that was
pending succeeds, whatever the queue's capacity (UQ_CAP, log 6). -/
def Obligations.UnmatchedKeyStaysAvailable : Prop :=
  ∀ (cap : Option Nat) (e : Byte) (s : State) (c : KeyCheck) (k : Nibble), checkIfPressed cap e s = some c →
    c.hit = false → (k ∈ s.uq ∨ RawEvent.key k ∈ s.raw) →
    ∃ d, checkIfPressed cap (k.setWidth 8) (s.setInput c.uq c.raw c.exitFlag) = some d ∧ d.hit = true

/-- R96, R233, R237 (the queue is not consulted and a non-key event counts as nothing: decision D13, log 21; when Exit
is seen: D14, log 22): Fx0A is LD Vx,K; it consumes the first raw event if there is one; a key goes to Vx and the pc
stays advanced; otherwise the pc goes back by 2 and no register changes; an Exit sets the flag; the queue is
untouched. -/
def Obligations.KeyWaitTakesOneEvent : Prop :=
  readsAs 0xF0FF 0xF00A (fun w => .ldVxK (xField w)) ∧
  ∀ (x : Reg) (s : State),
    (s.raw = [] → ∃ t, exec (.ldVxK x) s = .next t ∧ t.pc = s.pc - 2 ∧ sameExcept [.pc] s t) ∧
    (∀ k es, s.raw = .key k :: es → ∃ t, exec (.ldVxK x) s = .next t ∧ (t.reg x).toNat = k.toNat ∧ t.raw = es ∧
      regsExcept [x] s t ∧ sameExcept [.regs, .raw] s t) ∧
    (∀ es, s.raw = .other :: es → ∃ t, exec (.ldVxK x) s = .next t ∧ t.pc = s.pc - 2 ∧ t.raw = es ∧
      sameExcept [.pc, .raw] s t) ∧
    (∀ es, s.raw = .exit :: es → ∃ t, exec (.ldVxK x) s = .next t ∧ t.pc = s.pc - 2 ∧ t.raw = es ∧
      t.exitFlag = true ∧ sameExcept [.pc, .raw, .exitFlag] s t)

/-- R126, R131, R237 (decision D9, log 19): a tick that waits for a key with nothing available leaves the pc at the same
instruction, counts the timers down if asked, pulses the render request, and changes nothing else (but the load
mark). -/
def Obligations.WaitingTickRetriesTheSameInstruction : Prop :=
  ∀ (x : Reg) (s : State), fetches s → s.fetchWord = encode (.ldVxK x) → s.raw = [] →
    ∃ t, tick s = .next t ∧ t.pc = s.pc ∧ t.renderReqs = s.renderReqs + 1 ∧
      t.dt.toNat = (if s.updateTimers then s.dt.toNat - 1 else s.dt.toNat) ∧
      t.st.toNat = (if s.updateTimers then s.st.toNat - 1 else s.st.toNat) ∧
      sameExcept [.dt, .st, .renderReqs, .loadOpen] s t

/-- R96, R241, R242, R243 (the decrement comes after: decision D9, log 19): Fx07 is LD Vx,DT, Fx15 is LD DT,Vx, Fx18 is
LD ST,Vx. LD Vx,DT reads DT and leaves it, LD DT,Vx and LD ST,Vx write the timer from Vx; no fault, and no flag
unless VF is the destination. -/
def Obligations.TimerInstructionsMoveTheTimers : Prop :=
  readsAs 0xF0FF 0xF007 (fun w => .ldVxDt (xField w)) ∧
  readsAs 0xF0FF 0xF015 (fun w => .ldDtVx (xField w)) ∧
  readsAs 0xF0FF 0xF018 (fun w => .ldStVx (xField w)) ∧
  ∀ (x : Reg) (s : State),
    (∃ t, exec (.ldVxDt x) s = .next t ∧ t.reg x = s.dt ∧ t.dt = s.dt ∧ (x ≠ vf → t.reg vf = s.reg vf) ∧
      t.halted = s.halted ∧ t.fault = s.fault) ∧
    (∃ t, exec (.ldDtVx x) s = .next t ∧ t.dt = s.reg x ∧ t.st = s.st ∧ noFaultNoFlag s t) ∧
    (∃ t, exec (.ldStVx x) s = .next t ∧ t.st = s.reg x ∧ t.dt = s.dt ∧ noFaultNoFlag s t)

/-! ## The whole machine -/

/-- R8, R40 (slot zeroes: D10, log 7; parameters: logs 5, 26; memory form: log 25): the invariant holds right after
reset, at every value of the parameters whose FONT has the source's glyph A, the defaults (`State.reset`) among
them. -/
def Obligations.InvariantHoldsAtReset : Prop :=
  (∀ p : Params, p.font.hasGlyphA = true → MachineInv (State.resetWith p)) ∧ MachineInv State.reset

/-- R8, R21, R24, R27, R29, R35, R142, R262 (decisions D4, D19; logs 8, 11; canonical memory: log 25; `load` closed: log
3; parameters: log 26): every step, the host's moves before the tick included, leaves the parameters and keeps the
invariant: glyph A in FONT, memory canonical, a cause recorded exactly when halted, the pc at most 0x10FE, return
addresses at most 0x1000, slot 15 never written, `load` closed when halted, a finite queue within its capacity. -/
def Obligations.EveryStepKeepsTheInvariant : Prop :=
  ∀ s t : State, MachineInv s → step s = .next t → MachineInv t ∧ t.params = s.params

/-- R36, R263 (decisions D14, D19; logs 8, 22): unless the host resets, a raised exit flag stays raised over every step,
and a halted core whose `load` is closed (log 3; EveryStepKeepsTheInvariant says that it is whenever the core is
halted) stays halted with the same cause and everything frozen but what the host itself moves: the event stream and
the port fields. -/
def Obligations.ExitFlagAndHaltAreSticky : Prop :=
  ∀ s t : State, HostMove.reset ∉ s.host → step s = .next t →
    (s.exitFlag = true → t.exitFlag = true) ∧
    (s.halted = true → s.loadOpen = false → sameExcept [.raw, .host, .updateTimers] s t)

/-- R243 (decision D27): the sound timer is unobservable: two states that differ in ST only step to states that differ
in ST only. -/
def Obligations.SoundTimerIsUnobservable : Prop :=
  ∀ (s : State) (a b : Byte),
    mapNext (fun t => t.setSt 0) (step (s.setSt a)) = mapNext (fun t => t.setSt 0) (step (s.setSt b))

/-- R27, U17 (decision D4, log 11): stack slots at or above SP are unobservable: two states that agree on everything
else step to states that agree on everything but slots at or above the new SP. -/
def Obligations.DeadStackSlotsAreUnobservable : Prop :=
  ∀ s s' t : State, sameLiveState s s' → step s = .next t → ∃ t', step s' = .next t' ∧ sameLiveState t t'
end

