-- ==== Sys2Proof/Laws/Decode.lean ====
section
/-!
SUPPORT. The mask tests of R94 read as equations between the fields of R91, the fields of encoded words, and the row that reads a
word.
-/

namespace Sys2Proof

/-- The word of two bytes as a number: the first byte is the high one (R62). -/
theorem wordOfBytes_toNat (hi lo : Byte) : (wordOfBytes hi lo).toNat = hi.toNat * 256 + lo.toNat := by
  show (hi ++ lo).toNat = _
  rw [BitVec.toNat_append, ← Nat.shiftLeft_add_eq_or_of_lt lo.isLt, Nat.shiftLeft_eq]

/-! ## Masks as fields -/

/-- A word is determined by its four nibbles (R91). -/
theorem word_ext {w p : Word} (ho : opField w = opField p) (hx : xField w = xField p) (hy : yField w = yField p)
    (hn : nField w = nField p) : w = p := by
  have split : ∀ u : Word, u = (opField u ++ (xField u ++ (yField u ++ nField u : BitVec 8) : BitVec 12) : BitVec 16) := by
    intro u
    apply BitVec.eq_of_getLsbD_eq
    intro i hi
    simp only [opField, xField, yField, nField, BitVec.getLsbD_append, BitVec.getLsbD_extractLsb']
    interval_cases i <;> simp
  rw [split w, split p, ho, hx, hy, hn]

@[simp] theorem opField_and (w m : Word) : opField (w &&& m) = opField w &&& opField m := by
  simp [opField, BitVec.extractLsb'_and]
@[simp] theorem xField_and (w m : Word) : xField (w &&& m) = xField w &&& xField m := by
  simp [xField, BitVec.extractLsb'_and]
@[simp] theorem yField_and (w m : Word) : yField (w &&& m) = yField w &&& yField m := by
  simp [yField, BitVec.extractLsb'_and]
@[simp] theorem nField_and (w m : Word) : nField (w &&& m) = nField w &&& nField m := by
  simp [nField, BitVec.extractLsb'_and]

theorem nibble_and_F (v : Nibble) : v &&& 0xF#4 = v := BitVec.and_allOnes
theorem nibble_and_0 (v : Nibble) : v &&& 0x0#4 = 0#4 := BitVec.and_zero

/-- The second byte is the two low nibbles (R91). -/
theorem kkField_eq (w : Word) : kkField w = yField w ++ nField w := by
  apply BitVec.eq_of_getLsbD_eq
  intro i hi
  simp only [kkField, yField, nField, BitVec.getLsbD_append, BitVec.getLsbD_extractLsb']
  interval_cases i <;> simp

/-- Mask F000: the leading nibble decides. -/
theorem and_F000_eq_iff {w p : Word} (hx : xField p = 0) (hy : yField p = 0) (hn : nField p = 0) :
    w &&& 0xF000#16 = p ↔ opField w = opField p := by
  constructor
  · rintro rfl
    rw [opField_and]
    exact (nibble_and_F _).symm
  · intro h
    refine word_ext ?_ ?_ ?_ ?_
    · rw [opField_and, ← h]; exact nibble_and_F _
    · rw [xField_and, hx]; exact nibble_and_0 _
    · rw [yField_and, hy]; exact nibble_and_0 _
    · rw [nField_and, hn]; exact nibble_and_0 _

/-- Mask F00F: the leading and the last nibble decide. -/
theorem and_F00F_eq_iff {w p : Word} (hx : xField p = 0) (hy : yField p = 0) :
    w &&& 0xF00F#16 = p ↔ opField w = opField p ∧ nField w = nField p := by
  constructor
  · rintro rfl
    rw [opField_and, nField_and]
    exact ⟨(nibble_and_F _).symm, (nibble_and_F _).symm⟩
  · rintro ⟨ho, hn⟩
    refine word_ext ?_ ?_ ?_ ?_
    · rw [opField_and, ← ho]; exact nibble_and_F _
    · rw [xField_and, hx]; exact nibble_and_0 _
    · rw [yField_and, hy]; exact nibble_and_0 _
    · rw [nField_and, ← hn]; exact nibble_and_F _

/-- Mask F0FF: the leading nibble and the second byte decide. -/
theorem and_F0FF_eq_iff {w p : Word} (hx : xField p = 0) :
    w &&& 0xF0FF#16 = p ↔ opField w = opField p ∧ yField w = yField p ∧ nField w = nField p := by
  constructor
  · rintro rfl
    rw [opField_and, yField_and, nField_and]
    exact ⟨(nibble_and_F _).symm, (nibble_and_F _).symm, (nibble_and_F _).symm⟩
  · rintro ⟨ho, hy, hn⟩
    refine word_ext ?_ ?_ ?_ ?_
    · rw [opField_and, ← ho]; exact nibble_and_F _
    · rw [xField_and, hx]; exact nibble_and_0 _
    · rw [yField_and, ← hy]; exact nibble_and_F _
    · rw [nField_and, ← hn]; exact nibble_and_F _

/-- Mask FFFF: the word itself. -/
theorem and_FFFF (w : Word) : w &&& 0xFFFF#16 = w := BitVec.and_allOnes

/-! ## The fields of encoded words -/

@[simp] theorem opField_encodeR (op : Nibble) (x y : Reg) (n : Nibble) : opField (encodeR op x y n) = op := by
  apply BitVec.eq_of_getLsbD_eq
  intro i hi
  simp only [opField, encodeR, BitVec.getLsbD_append, BitVec.getLsbD_extractLsb']
  interval_cases i <;> simp
@[simp] theorem xField_encodeR (op : Nibble) (x y : Reg) (n : Nibble) : xField (encodeR op x y n) = x := by
  apply BitVec.eq_of_getLsbD_eq
  intro i hi
  simp only [xField, encodeR, BitVec.getLsbD_append, BitVec.getLsbD_extractLsb']
  interval_cases i <;> simp
@[simp] theorem yField_encodeR (op : Nibble) (x y : Reg) (n : Nibble) : yField (encodeR op x y n) = y := by
  apply BitVec.eq_of_getLsbD_eq
  intro i hi
  simp only [yField, encodeR, BitVec.getLsbD_append, BitVec.getLsbD_extractLsb']
  interval_cases i <;> simp
@[simp] theorem nField_encodeR (op : Nibble) (x y : Reg) (n : Nibble) : nField (encodeR op x y n) = n := by
  apply BitVec.eq_of_getLsbD_eq
  intro i hi
  simp only [nField, encodeR, BitVec.getLsbD_append, BitVec.getLsbD_extractLsb']
  interval_cases i <;> simp

@[simp] theorem opField_encodeK (op : Nibble) (x : Reg) (kk : Byte) : opField (encodeK op x kk) = op := by
  apply BitVec.eq_of_getLsbD_eq
  intro i hi
  simp only [opField, encodeK, BitVec.getLsbD_append, BitVec.getLsbD_extractLsb']
  interval_cases i <;> simp
@[simp] theorem xField_encodeK (op : Nibble) (x : Reg) (kk : Byte) : xField (encodeK op x kk) = x := by
  apply BitVec.eq_of_getLsbD_eq
  intro i hi
  simp only [xField, encodeK, BitVec.getLsbD_append, BitVec.getLsbD_extractLsb']
  interval_cases i <;> simp
@[simp] theorem kkField_encodeK (op : Nibble) (x : Reg) (kk : Byte) : kkField (encodeK op x kk) = kk := by
  apply BitVec.eq_of_getLsbD_eq
  intro i hi
  simp only [kkField, encodeK, BitVec.getLsbD_append, BitVec.getLsbD_extractLsb']
  interval_cases i <;> simp
@[simp] theorem yField_encodeK (op : Nibble) (x : Reg) (kk : Byte) :
    yField (encodeK op x kk) = kk.extractLsb' 4 4 := by
  apply BitVec.eq_of_getLsbD_eq
  intro i hi
  simp only [yField, encodeK, BitVec.getLsbD_append, BitVec.getLsbD_extractLsb']
  interval_cases i <;> simp
@[simp] theorem nField_encodeK (op : Nibble) (x : Reg) (kk : Byte) :
    nField (encodeK op x kk) = kk.extractLsb' 0 4 := by
  apply BitVec.eq_of_getLsbD_eq
  intro i hi
  simp only [nField, encodeK, BitVec.getLsbD_append, BitVec.getLsbD_extractLsb']
  interval_cases i <;> simp

@[simp] theorem opField_encodeA (op : Nibble) (aaa : Imm12) : opField (encodeA op aaa) = op := by
  apply BitVec.eq_of_getLsbD_eq
  intro i hi
  simp only [opField, encodeA, BitVec.getLsbD_append, BitVec.getLsbD_extractLsb']
  interval_cases i <;> simp
@[simp] theorem aaaField_encodeA (op : Nibble) (aaa : Imm12) : aaaField (encodeA op aaa) = aaa := by
  apply BitVec.eq_of_getLsbD_eq
  intro i hi
  simp only [aaaField, encodeA, BitVec.getLsbD_append, BitVec.getLsbD_extractLsb']
  interval_cases i <;> simp

/-! ## Matching a row -/

/-- A row of mask F000 tests the leading nibble. -/
theorem rowMatches_F000_eq (w p : Word) (b : Word → Instr) (hx : xField p = 0) (hy : yField p = 0)
    (hn : nField p = 0) : rowMatches w ⟨0xF000, p, b⟩ = (opField w == opField p) := by
  rw [Bool.eq_iff_iff]
  simp [rowMatches, and_F000_eq_iff hx hy hn]

/-- A row of mask F00F tests the leading and the last nibble. -/
theorem rowMatches_F00F_eq (w p : Word) (b : Word → Instr) (hx : xField p = 0) (hy : yField p = 0) :
    rowMatches w ⟨0xF00F, p, b⟩ = (opField w == opField p && nField w == nField p) := by
  rw [Bool.eq_iff_iff]
  simp [rowMatches, and_F00F_eq_iff hx hy]

/-- A row of mask F0FF tests the leading nibble and the second byte. -/
theorem rowMatches_F0FF_eq (w p : Word) (b : Word → Instr) (hx : xField p = 0) :
    rowMatches w ⟨0xF0FF, p, b⟩ = (opField w == opField p && (yField w == yField p && nField w == nField p)) := by
  rw [Bool.eq_iff_iff]
  simp [rowMatches, and_F0FF_eq_iff hx]

/-- A row of mask FFFF tests the whole word. -/
theorem rowMatches_FFFF_eq (w p : Word) (b : Word → Instr) : rowMatches w ⟨0xFFFF, p, b⟩ = (w == p) := by
  rw [Bool.eq_iff_iff, rowMatches, show (0xFFFF : Word) = BitVec.allOnes 16 from rfl, BitVec.and_allOnes]

/-- Format A and K words match the row of their leading nibble. -/
theorem rowMatches_F000 {w : Word} {op : Nibble} (b : Word → Instr) (h : opField w = op) :
    rowMatches w ⟨0xF000, encodeR op 0 0 0, b⟩ = true := by
  simp [rowMatches, and_F000_eq_iff, h]

/-- Format R words match the row of their leading and last nibbles. -/
theorem rowMatches_F00F {w : Word} {op n : Nibble} (b : Word → Instr) (h : opField w = op) (hn : nField w = n) :
    rowMatches w ⟨0xF00F, encodeR op 0 0 n, b⟩ = true := by
  simp [rowMatches, and_F00F_eq_iff, h, hn]

/-- Format X words match the row of their leading nibble and function byte. -/
theorem rowMatches_F0FF {w : Word} {op y n : Nibble} (b : Word → Instr) (h : opField w = op) (hy : yField w = y)
    (hn : nField w = n) : rowMatches w ⟨0xF0FF, encodeR op 0 y n, b⟩ = true := by
  simp [rowMatches, and_F0FF_eq_iff, h, hy, hn]

/-! ## Bytes and words -/

/-- Two rows that some bit both masks cover tells apart match no word together. -/
theorem rowMatches_disjoint {w : Word} {q r : OpcodeRow} (h : q.mask &&& r.mask &&& (q.pattern ^^^ r.pattern) ≠ 0#16)
    (hr : rowMatches w r = true) : rowMatches w q = false := by
  cases hq : rowMatches w q with
  | false => rfl
  | true =>
    refine absurd ?_ h
    rw [rowMatches, beq_iff_eq] at hq hr
    rw [← hq, ← hr]
    refine BitVec.eq_of_getElem_eq fun b hb => ?_
    rw [BitVec.getElem_zero]
    simp only [BitVec.getElem_and, BitVec.getElem_xor]
    cases w[b] <;> cases q.mask[b] <;> cases r.mask[b] <;> rfl

/-- A word that matches row `k`, from which every row before it is told apart by such a bit, is read by that row (R94). -/
theorem decodeWord_row {w : Word} {r : OpcodeRow} (k : Nat) (hk : opcodeRows[k]? = some r) (hr : rowMatches w r = true)
    (before : ∀ q ∈ opcodeRows.take k, q.mask &&& r.mask &&& (q.pattern ^^^ r.pattern) ≠ 0#16) :
    decodeWord w = .ok (r.build w) := by
  have hlt : k < opcodeRows.length := (List.getElem?_eq_some_iff.1 hk).1
  have hfind : opcodeRows.find? (rowMatches w) = some r := by
    rw [← List.take_append_drop k opcodeRows, List.find?_append,
      List.find?_eq_none.2 fun q hq => by rw [rowMatches_disjoint (before q hq) hr]; decide,
      List.drop_eq_getElem_cons hlt, (List.getElem?_eq_some_iff.1 hk).2, List.find?_cons_of_pos hr]
    rfl
  rw [decodeWord, hfind]

/-- A word's bytes, put together again, are the word (R62). -/
@[simp] theorem wordOfBytes_bytes (w : Word) : wordOfBytes (w.extractLsb' 8 8) (w.extractLsb' 0 8) = w := by
  apply BitVec.eq_of_getLsbD_eq
  intro i hi
  simp only [wordOfBytes, BitVec.getLsbD_append, BitVec.getLsbD_extractLsb']
  interval_cases i <;> simp

end Sys2Proof
end

