-- ==== Sys2Proof/Laws/Memory.lean ====
section
/-!
SUPPORT. The laws of memory: a read after a write, the canonical form kept by every operation, and reset memory.
-/

namespace Sys2Proof.Machine

variable {font : Font}

/-! ## Reads after writes -/

/-- An insertion leaves every other address alone, whatever the list. -/
theorem Memory.read_insert_ne (m : Memory) {a c : Nat} (b : Byte) (h : c ≠ a) :
    Memory.read font (Memory.insert font a b m) c = Memory.read font m c := by
  induction m with
  | nil => unfold Memory.insert; split <;> simp [Memory.read, h.symm]
  | cons cell m ih =>
    obtain ⟨k, v⟩ := cell
    simp only [Memory.insert]
    split
    · simp only [Memory.read, ih]
    · by_cases hk : k = a
      · subst hk
        split <;> simp [Memory.read, h.symm]
      · split <;> simp [Memory.read, h.symm]

/-- A cell list that starts above an address reads the reset contents there. -/
theorem Memory.read_of_wfFrom_lt {m : Memory} {lo a : Nat} (hm : Memory.wfFrom font lo m = true) (h : a < lo) :
    Memory.read font m a = Config.resetByte font a := by
  induction m generalizing lo with
  | nil => rfl
  | cons cell m ih =>
    obtain ⟨k, v⟩ := cell
    simp only [Memory.wfFrom, Bool.and_eq_true, decide_eq_true_eq] at hm
    have hk : k ≠ a := by omega
    simp only [Memory.read, if_neg hk]
    exact ih hm.2 (by omega)

/-- In a canonical list an insertion is read back. -/
theorem Memory.read_insert_eq {m : Memory} {lo : Nat} (a : Nat) (b : Byte) (hm : Memory.wfFrom font lo m = true) :
    Memory.read font (Memory.insert font a b m) a = b := by
  induction m generalizing lo with
  | nil => unfold Memory.insert; split <;> simp_all [Memory.read]
  | cons cell m ih =>
    obtain ⟨k, v⟩ := cell
    simp only [Memory.wfFrom, Bool.and_eq_true, decide_eq_true_eq] at hm
    simp only [Memory.insert]
    split
    · have hk : k ≠ a := by omega
      simp only [Memory.read, if_neg hk]
      exact ih hm.2
    · split
      · rename_i hb
        by_cases hk : k = a
        · simp only [if_pos hk, hb]
          exact Memory.read_of_wfFrom_lt hm.2 (by omega)
        · simp only [if_neg hk, Memory.read, hb]
          exact Memory.read_of_wfFrom_lt hm.2 (by omega)
      · simp [Memory.read]

/-- A write leaves every other address alone. -/
@[simp] theorem Memory.read_write_ne (m : Memory) {a c : Nat} (b : Byte) (h : c ≠ a) :
    Memory.read font (Memory.write font m a b) c = Memory.read font m c := by
  unfold Memory.write
  split
  · exact Memory.read_insert_ne m b h
  · rfl

/-- A write to an existing address of a canonical memory is read back. -/
theorem Memory.read_write_eq {m : Memory} {a : Nat} (b : Byte) (hm : m.wf font = true) (ha : a < Config.memSize) :
    Memory.read font (Memory.write font m a b) a = b := by
  simp only [Memory.write, if_pos ha]
  exact Memory.read_insert_eq a b hm

/-! ## The canonical form -/

/-- Lowering the bound keeps the form. -/
theorem Memory.wfFrom_mono {m : Memory} {lo lo' : Nat} (hm : Memory.wfFrom font lo m = true) (h : lo' ≤ lo) :
    Memory.wfFrom font lo' m = true := by
  cases m with
  | nil => rfl
  | cons cell m =>
    obtain ⟨k, v⟩ := cell
    simp only [Memory.wfFrom, Bool.and_eq_true, decide_eq_true_eq] at hm ⊢
    exact ⟨⟨⟨by omega, hm.1.1.2⟩, hm.1.2⟩, hm.2⟩

/-- An insertion at an existing address keeps the form. -/
theorem Memory.wfFrom_insert {m : Memory} {lo a : Nat} (b : Byte) (hm : Memory.wfFrom font lo m = true) (hlo : lo ≤ a)
    (ha : a < Config.memSize) : Memory.wfFrom font lo (Memory.insert font a b m) = true := by
  induction m generalizing lo with
  | nil =>
    unfold Memory.insert
    split
    · rfl
    · simp_all [Memory.wfFrom]
  | cons cell m ih =>
    obtain ⟨k, v⟩ := cell
    have hm' := hm
    simp only [Memory.wfFrom, Bool.and_eq_true, decide_eq_true_eq] at hm
    obtain ⟨⟨⟨hk, hks⟩, hv⟩, hrest⟩ := hm
    simp only [Memory.insert]
    split
    · rename_i hlt
      simp only [Memory.wfFrom, Bool.and_eq_true, decide_eq_true_eq]
      exact ⟨⟨⟨hk, hks⟩, hv⟩, ih hrest (by omega)⟩
    · have hrest' : Memory.wfFrom font (a + 1) (if k = a then m else (k, v) :: m) = true := by
        split
        · rename_i heq
          subst heq
          exact hrest
        · simp only [Memory.wfFrom, Bool.and_eq_true, decide_eq_true_eq]
          exact ⟨⟨⟨by omega, hks⟩, hv⟩, hrest⟩
      split
      · exact Memory.wfFrom_mono hrest' (by omega)
      · rename_i hb
        simp only [Memory.wfFrom, Bool.and_eq_true, decide_eq_true_eq]
        exact ⟨⟨⟨hlo, ha⟩, hb⟩, hrest'⟩

/-- A write keeps the canonical form. -/
theorem Memory.wf_write {m : Memory} (a : Nat) (b : Byte) (hm : m.wf font = true) : (Memory.write font m a b).wf font = true := by
  unfold Memory.write
  split
  · exact Memory.wfFrom_insert b hm (Nat.zero_le a) (by assumption)
  · exact hm

/-- Writing bytes keeps the canonical form. -/
theorem Memory.wf_writeBytes {m : Memory} (a : Nat) (bs : List Byte) (hm : m.wf font = true) :
    (Memory.writeBytes font m a bs).wf font = true := by
  induction bs generalizing m a with
  | nil => exact hm
  | cons b bs ih => exact ih (a + 1) (Memory.wf_write a b hm)

/-- Reset memory is canonical. -/
theorem State.reset_memWf : State.reset.memWf = true := rfl

/-! ## Blocks -/

/-- Writing bytes leaves every address outside the block alone. -/
theorem Memory.read_writeBytes_outside (m : Memory) (a : Nat) (bs : List Byte) {c : Nat}
    (h : ¬ (a ≤ c ∧ c < a + bs.length)) : Memory.read font (Memory.writeBytes font m a bs) c = Memory.read font m c := by
  induction bs generalizing m a with
  | nil => rfl
  | cons b bs ih =>
    simp only [List.length_cons] at h
    rw [Memory.writeBytes, ih (Memory.write font m a b) (a + 1) (by omega), Memory.read_write_ne m b (by omega)]

/-- Inside the block each address reads its own byte. -/
theorem Memory.read_writeBytes_inside {m : Memory} (hm : m.wf font = true) (a : Nat) (bs : List Byte) {k : Nat}
    (hk : k < bs.length) (hr : a + bs.length ≤ Config.memSize) :
    Memory.read font (Memory.writeBytes font m a bs) (a + k) = bs[k] := by
  induction bs generalizing m a k with
  | nil => simp at hk
  | cons b bs ih =>
    simp only [List.length_cons] at hk hr
    cases k with
    | zero =>
      rw [Memory.writeBytes, Memory.read_writeBytes_outside _ _ _ (by omega)]
      exact Memory.read_write_eq b hm (by omega)
    | succ k =>
      have := ih (Memory.wf_write a b hm) (a + 1) (k := k) (by omega) (by omega)
      rw [Memory.writeBytes, show a + (k + 1) = a + 1 + k by omega, this]
      rfl

@[simp] theorem State.readBytes_length (s : State) (a n : Nat) : (s.readBytes a n).length = n := by
  simp [State.readBytes]

@[simp] theorem State.readBytes_getElem (s : State) (a n k : Nat) (h : k < (s.readBytes a n).length) :
    (s.readBytes a n)[k] = s.read (a + k) := by
  simp [State.readBytes]

/-! ## The state's memory -/

/-- Storing bytes leaves every address outside the block alone. -/
theorem State.read_storeBytes_outside (s : State) (a : Nat) (bs : List Byte) {c : Nat}
    (h : ¬ (a ≤ c ∧ c < a + bs.length)) : (s.storeBytes a bs).read c = s.read c :=
  Memory.read_writeBytes_outside s.mem a bs h

/-- Inside the stored block each address reads its own byte. -/
theorem State.read_storeBytes_inside {s : State} (hm : s.memWf = true) (a : Nat) (bs : List Byte) {k : Nat}
    (hk : k < bs.length) (hr : a + bs.length ≤ Config.memSize) : (s.storeBytes a bs).read (a + k) = bs[k] :=
  Memory.read_writeBytes_inside hm a bs hk hr

/-- Storing bytes keeps the canonical form. -/
theorem State.memWf_storeBytes {s : State} (a : Nat) (bs : List Byte) (hm : s.memWf = true) :
    (s.storeBytes a bs).memWf = true :=
  Memory.wf_writeBytes a bs hm

end Sys2Proof.Machine
end

