-- ==== Sys2Proof/Laws/State.lean ====
section
/-!
SUPPORT. What each named update of the state does to each field, one lemma per field per update, so that no later proof
unfolds a record update; and the read operations through the updates that do not touch what they read.
-/

namespace Sys2Proof.Machine

variable (s : State)

/-! ### `State.setReg` -/

@[simp] theorem State.setReg_params (x : Reg) (b : Byte) : (s.setReg x b).params = s.params := rfl
@[simp] theorem State.setReg_mem (x : Reg) (b : Byte) : (s.setReg x b).mem = s.mem := rfl
@[simp] theorem State.setReg_v (x : Reg) (b : Byte) : (s.setReg x b).v = s.v.set x.toNat b x.isLt := rfl
@[simp] theorem State.setReg_i (x : Reg) (b : Byte) : (s.setReg x b).i = s.i := rfl
@[simp] theorem State.setReg_pc (x : Reg) (b : Byte) : (s.setReg x b).pc = s.pc := rfl
@[simp] theorem State.setReg_sp (x : Reg) (b : Byte) : (s.setReg x b).sp = s.sp := rfl
@[simp] theorem State.setReg_stack (x : Reg) (b : Byte) : (s.setReg x b).stack = s.stack := rfl
@[simp] theorem State.setReg_dt (x : Reg) (b : Byte) : (s.setReg x b).dt = s.dt := rfl
@[simp] theorem State.setReg_st (x : Reg) (b : Byte) : (s.setReg x b).st = s.st := rfl
@[simp] theorem State.setReg_halted (x : Reg) (b : Byte) : (s.setReg x b).halted = s.halted := rfl
@[simp] theorem State.setReg_fault (x : Reg) (b : Byte) : (s.setReg x b).fault = s.fault := rfl
@[simp] theorem State.setReg_fb (x : Reg) (b : Byte) : (s.setReg x b).fb = s.fb := rfl
@[simp] theorem State.setReg_uq (x : Reg) (b : Byte) : (s.setReg x b).uq = s.uq := rfl
@[simp] theorem State.setReg_exitFlag (x : Reg) (b : Byte) : (s.setReg x b).exitFlag = s.exitFlag := rfl
@[simp] theorem State.setReg_raw (x : Reg) (b : Byte) : (s.setReg x b).raw = s.raw := rfl
@[simp] theorem State.setReg_updateTimers (x : Reg) (b : Byte) : (s.setReg x b).updateTimers = s.updateTimers := rfl
@[simp] theorem State.setReg_host (x : Reg) (b : Byte) : (s.setReg x b).host = s.host := rfl
@[simp] theorem State.setReg_loadOpen (x : Reg) (b : Byte) : (s.setReg x b).loadOpen = s.loadOpen := rfl
@[simp] theorem State.setReg_draws (x : Reg) (b : Byte) : (s.setReg x b).draws = s.draws := rfl
@[simp] theorem State.setReg_renderReqs (x : Reg) (b : Byte) : (s.setReg x b).renderReqs = s.renderReqs := rfl
@[simp] theorem State.setReg_read (x : Reg) (b : Byte) (c : Nat) : (s.setReg x b).read c = s.read c := rfl
@[simp] theorem State.setReg_slot (x : Reg) (b : Byte) (j : Nibble) : (s.setReg x b).slot j = s.slot j := rfl

/-! ### `State.setI` -/

@[simp] theorem State.setI_params (w : Word) : (s.setI w).params = s.params := rfl
@[simp] theorem State.setI_mem (w : Word) : (s.setI w).mem = s.mem := rfl
@[simp] theorem State.setI_v (w : Word) : (s.setI w).v = s.v := rfl
@[simp] theorem State.setI_i (w : Word) : (s.setI w).i = w := rfl
@[simp] theorem State.setI_pc (w : Word) : (s.setI w).pc = s.pc := rfl
@[simp] theorem State.setI_sp (w : Word) : (s.setI w).sp = s.sp := rfl
@[simp] theorem State.setI_stack (w : Word) : (s.setI w).stack = s.stack := rfl
@[simp] theorem State.setI_dt (w : Word) : (s.setI w).dt = s.dt := rfl
@[simp] theorem State.setI_st (w : Word) : (s.setI w).st = s.st := rfl
@[simp] theorem State.setI_halted (w : Word) : (s.setI w).halted = s.halted := rfl
@[simp] theorem State.setI_fault (w : Word) : (s.setI w).fault = s.fault := rfl
@[simp] theorem State.setI_fb (w : Word) : (s.setI w).fb = s.fb := rfl
@[simp] theorem State.setI_uq (w : Word) : (s.setI w).uq = s.uq := rfl
@[simp] theorem State.setI_exitFlag (w : Word) : (s.setI w).exitFlag = s.exitFlag := rfl
@[simp] theorem State.setI_raw (w : Word) : (s.setI w).raw = s.raw := rfl
@[simp] theorem State.setI_updateTimers (w : Word) : (s.setI w).updateTimers = s.updateTimers := rfl
@[simp] theorem State.setI_host (w : Word) : (s.setI w).host = s.host := rfl
@[simp] theorem State.setI_loadOpen (w : Word) : (s.setI w).loadOpen = s.loadOpen := rfl
@[simp] theorem State.setI_draws (w : Word) : (s.setI w).draws = s.draws := rfl
@[simp] theorem State.setI_renderReqs (w : Word) : (s.setI w).renderReqs = s.renderReqs := rfl
@[simp] theorem State.setI_reg (w : Word) (r : Reg) : (s.setI w).reg r = s.reg r := rfl
@[simp] theorem State.setI_read (w : Word) (c : Nat) : (s.setI w).read c = s.read c := rfl
@[simp] theorem State.setI_slot (w : Word) (j : Nibble) : (s.setI w).slot j = s.slot j := rfl

/-! ### `State.setPc` -/

@[simp] theorem State.setPc_params (w : Word) : (s.setPc w).params = s.params := rfl
@[simp] theorem State.setPc_mem (w : Word) : (s.setPc w).mem = s.mem := rfl
@[simp] theorem State.setPc_v (w : Word) : (s.setPc w).v = s.v := rfl
@[simp] theorem State.setPc_i (w : Word) : (s.setPc w).i = s.i := rfl
@[simp] theorem State.setPc_pc (w : Word) : (s.setPc w).pc = w := rfl
@[simp] theorem State.setPc_sp (w : Word) : (s.setPc w).sp = s.sp := rfl
@[simp] theorem State.setPc_stack (w : Word) : (s.setPc w).stack = s.stack := rfl
@[simp] theorem State.setPc_dt (w : Word) : (s.setPc w).dt = s.dt := rfl
@[simp] theorem State.setPc_st (w : Word) : (s.setPc w).st = s.st := rfl
@[simp] theorem State.setPc_halted (w : Word) : (s.setPc w).halted = s.halted := rfl
@[simp] theorem State.setPc_fault (w : Word) : (s.setPc w).fault = s.fault := rfl
@[simp] theorem State.setPc_fb (w : Word) : (s.setPc w).fb = s.fb := rfl
@[simp] theorem State.setPc_uq (w : Word) : (s.setPc w).uq = s.uq := rfl
@[simp] theorem State.setPc_exitFlag (w : Word) : (s.setPc w).exitFlag = s.exitFlag := rfl
@[simp] theorem State.setPc_raw (w : Word) : (s.setPc w).raw = s.raw := rfl
@[simp] theorem State.setPc_updateTimers (w : Word) : (s.setPc w).updateTimers = s.updateTimers := rfl
@[simp] theorem State.setPc_host (w : Word) : (s.setPc w).host = s.host := rfl
@[simp] theorem State.setPc_loadOpen (w : Word) : (s.setPc w).loadOpen = s.loadOpen := rfl
@[simp] theorem State.setPc_draws (w : Word) : (s.setPc w).draws = s.draws := rfl
@[simp] theorem State.setPc_renderReqs (w : Word) : (s.setPc w).renderReqs = s.renderReqs := rfl
@[simp] theorem State.setPc_reg (w : Word) (r : Reg) : (s.setPc w).reg r = s.reg r := rfl
@[simp] theorem State.setPc_read (w : Word) (c : Nat) : (s.setPc w).read c = s.read c := rfl
@[simp] theorem State.setPc_slot (w : Word) (j : Nibble) : (s.setPc w).slot j = s.slot j := rfl

/-! ### `State.setDt` -/

@[simp] theorem State.setDt_params (b : Byte) : (s.setDt b).params = s.params := rfl
@[simp] theorem State.setDt_mem (b : Byte) : (s.setDt b).mem = s.mem := rfl
@[simp] theorem State.setDt_v (b : Byte) : (s.setDt b).v = s.v := rfl
@[simp] theorem State.setDt_i (b : Byte) : (s.setDt b).i = s.i := rfl
@[simp] theorem State.setDt_pc (b : Byte) : (s.setDt b).pc = s.pc := rfl
@[simp] theorem State.setDt_sp (b : Byte) : (s.setDt b).sp = s.sp := rfl
@[simp] theorem State.setDt_stack (b : Byte) : (s.setDt b).stack = s.stack := rfl
@[simp] theorem State.setDt_dt (b : Byte) : (s.setDt b).dt = b := rfl
@[simp] theorem State.setDt_st (b : Byte) : (s.setDt b).st = s.st := rfl
@[simp] theorem State.setDt_halted (b : Byte) : (s.setDt b).halted = s.halted := rfl
@[simp] theorem State.setDt_fault (b : Byte) : (s.setDt b).fault = s.fault := rfl
@[simp] theorem State.setDt_fb (b : Byte) : (s.setDt b).fb = s.fb := rfl
@[simp] theorem State.setDt_uq (b : Byte) : (s.setDt b).uq = s.uq := rfl
@[simp] theorem State.setDt_exitFlag (b : Byte) : (s.setDt b).exitFlag = s.exitFlag := rfl
@[simp] theorem State.setDt_raw (b : Byte) : (s.setDt b).raw = s.raw := rfl
@[simp] theorem State.setDt_updateTimers (b : Byte) : (s.setDt b).updateTimers = s.updateTimers := rfl
@[simp] theorem State.setDt_host (b : Byte) : (s.setDt b).host = s.host := rfl
@[simp] theorem State.setDt_loadOpen (b : Byte) : (s.setDt b).loadOpen = s.loadOpen := rfl
@[simp] theorem State.setDt_draws (b : Byte) : (s.setDt b).draws = s.draws := rfl
@[simp] theorem State.setDt_renderReqs (b : Byte) : (s.setDt b).renderReqs = s.renderReqs := rfl
@[simp] theorem State.setDt_reg (b : Byte) (r : Reg) : (s.setDt b).reg r = s.reg r := rfl
@[simp] theorem State.setDt_read (b : Byte) (c : Nat) : (s.setDt b).read c = s.read c := rfl
@[simp] theorem State.setDt_slot (b : Byte) (j : Nibble) : (s.setDt b).slot j = s.slot j := rfl

/-! ### `State.setSt` -/

@[simp] theorem State.setSt_params (b : Byte) : (s.setSt b).params = s.params := rfl
@[simp] theorem State.setSt_mem (b : Byte) : (s.setSt b).mem = s.mem := rfl
@[simp] theorem State.setSt_v (b : Byte) : (s.setSt b).v = s.v := rfl
@[simp] theorem State.setSt_i (b : Byte) : (s.setSt b).i = s.i := rfl
@[simp] theorem State.setSt_pc (b : Byte) : (s.setSt b).pc = s.pc := rfl
@[simp] theorem State.setSt_sp (b : Byte) : (s.setSt b).sp = s.sp := rfl
@[simp] theorem State.setSt_stack (b : Byte) : (s.setSt b).stack = s.stack := rfl
@[simp] theorem State.setSt_dt (b : Byte) : (s.setSt b).dt = s.dt := rfl
@[simp] theorem State.setSt_st (b : Byte) : (s.setSt b).st = b := rfl
@[simp] theorem State.setSt_halted (b : Byte) : (s.setSt b).halted = s.halted := rfl
@[simp] theorem State.setSt_fault (b : Byte) : (s.setSt b).fault = s.fault := rfl
@[simp] theorem State.setSt_fb (b : Byte) : (s.setSt b).fb = s.fb := rfl
@[simp] theorem State.setSt_uq (b : Byte) : (s.setSt b).uq = s.uq := rfl
@[simp] theorem State.setSt_exitFlag (b : Byte) : (s.setSt b).exitFlag = s.exitFlag := rfl
@[simp] theorem State.setSt_raw (b : Byte) : (s.setSt b).raw = s.raw := rfl
@[simp] theorem State.setSt_updateTimers (b : Byte) : (s.setSt b).updateTimers = s.updateTimers := rfl
@[simp] theorem State.setSt_host (b : Byte) : (s.setSt b).host = s.host := rfl
@[simp] theorem State.setSt_loadOpen (b : Byte) : (s.setSt b).loadOpen = s.loadOpen := rfl
@[simp] theorem State.setSt_draws (b : Byte) : (s.setSt b).draws = s.draws := rfl
@[simp] theorem State.setSt_renderReqs (b : Byte) : (s.setSt b).renderReqs = s.renderReqs := rfl
@[simp] theorem State.setSt_reg (b : Byte) (r : Reg) : (s.setSt b).reg r = s.reg r := rfl
@[simp] theorem State.setSt_read (b : Byte) (c : Nat) : (s.setSt b).read c = s.read c := rfl
@[simp] theorem State.setSt_slot (b : Byte) (j : Nibble) : (s.setSt b).slot j = s.slot j := rfl

/-! ### `State.advance` -/

@[simp] theorem State.advance_params : (s.advance).params = s.params := rfl
@[simp] theorem State.advance_mem : (s.advance).mem = s.mem := rfl
@[simp] theorem State.advance_v : (s.advance).v = s.v := rfl
@[simp] theorem State.advance_i : (s.advance).i = s.i := rfl
@[simp] theorem State.advance_pc : (s.advance).pc = s.pc + 2 := rfl
@[simp] theorem State.advance_sp : (s.advance).sp = s.sp := rfl
@[simp] theorem State.advance_stack : (s.advance).stack = s.stack := rfl
@[simp] theorem State.advance_dt : (s.advance).dt = s.dt := rfl
@[simp] theorem State.advance_st : (s.advance).st = s.st := rfl
@[simp] theorem State.advance_halted : (s.advance).halted = s.halted := rfl
@[simp] theorem State.advance_fault : (s.advance).fault = s.fault := rfl
@[simp] theorem State.advance_fb : (s.advance).fb = s.fb := rfl
@[simp] theorem State.advance_uq : (s.advance).uq = s.uq := rfl
@[simp] theorem State.advance_exitFlag : (s.advance).exitFlag = s.exitFlag := rfl
@[simp] theorem State.advance_raw : (s.advance).raw = s.raw := rfl
@[simp] theorem State.advance_updateTimers : (s.advance).updateTimers = s.updateTimers := rfl
@[simp] theorem State.advance_host : (s.advance).host = s.host := rfl
@[simp] theorem State.advance_loadOpen : (s.advance).loadOpen = s.loadOpen := rfl
@[simp] theorem State.advance_draws : (s.advance).draws = s.draws := rfl
@[simp] theorem State.advance_renderReqs : (s.advance).renderReqs = s.renderReqs := rfl
@[simp] theorem State.advance_reg (r : Reg) : (s.advance).reg r = s.reg r := rfl
@[simp] theorem State.advance_read (c : Nat) : (s.advance).read c = s.read c := rfl
@[simp] theorem State.advance_slot (j : Nibble) : (s.advance).slot j = s.slot j := rfl

/-! ### `State.rewind` -/

@[simp] theorem State.rewind_params : (s.rewind).params = s.params := rfl
@[simp] theorem State.rewind_mem : (s.rewind).mem = s.mem := rfl
@[simp] theorem State.rewind_v : (s.rewind).v = s.v := rfl
@[simp] theorem State.rewind_i : (s.rewind).i = s.i := rfl
@[simp] theorem State.rewind_pc : (s.rewind).pc = s.pc - 2 := rfl
@[simp] theorem State.rewind_sp : (s.rewind).sp = s.sp := rfl
@[simp] theorem State.rewind_stack : (s.rewind).stack = s.stack := rfl
@[simp] theorem State.rewind_dt : (s.rewind).dt = s.dt := rfl
@[simp] theorem State.rewind_st : (s.rewind).st = s.st := rfl
@[simp] theorem State.rewind_halted : (s.rewind).halted = s.halted := rfl
@[simp] theorem State.rewind_fault : (s.rewind).fault = s.fault := rfl
@[simp] theorem State.rewind_fb : (s.rewind).fb = s.fb := rfl
@[simp] theorem State.rewind_uq : (s.rewind).uq = s.uq := rfl
@[simp] theorem State.rewind_exitFlag : (s.rewind).exitFlag = s.exitFlag := rfl
@[simp] theorem State.rewind_raw : (s.rewind).raw = s.raw := rfl
@[simp] theorem State.rewind_updateTimers : (s.rewind).updateTimers = s.updateTimers := rfl
@[simp] theorem State.rewind_host : (s.rewind).host = s.host := rfl
@[simp] theorem State.rewind_loadOpen : (s.rewind).loadOpen = s.loadOpen := rfl
@[simp] theorem State.rewind_draws : (s.rewind).draws = s.draws := rfl
@[simp] theorem State.rewind_renderReqs : (s.rewind).renderReqs = s.renderReqs := rfl
@[simp] theorem State.rewind_reg (r : Reg) : (s.rewind).reg r = s.reg r := rfl
@[simp] theorem State.rewind_read (c : Nat) : (s.rewind).read c = s.read c := rfl
@[simp] theorem State.rewind_slot (j : Nibble) : (s.rewind).slot j = s.slot j := rfl

/-! ### `State.countDraw` -/

@[simp] theorem State.countDraw_params : (s.countDraw).params = s.params := rfl
@[simp] theorem State.countDraw_mem : (s.countDraw).mem = s.mem := rfl
@[simp] theorem State.countDraw_v : (s.countDraw).v = s.v := rfl
@[simp] theorem State.countDraw_i : (s.countDraw).i = s.i := rfl
@[simp] theorem State.countDraw_pc : (s.countDraw).pc = s.pc := rfl
@[simp] theorem State.countDraw_sp : (s.countDraw).sp = s.sp := rfl
@[simp] theorem State.countDraw_stack : (s.countDraw).stack = s.stack := rfl
@[simp] theorem State.countDraw_dt : (s.countDraw).dt = s.dt := rfl
@[simp] theorem State.countDraw_st : (s.countDraw).st = s.st := rfl
@[simp] theorem State.countDraw_halted : (s.countDraw).halted = s.halted := rfl
@[simp] theorem State.countDraw_fault : (s.countDraw).fault = s.fault := rfl
@[simp] theorem State.countDraw_fb : (s.countDraw).fb = s.fb := rfl
@[simp] theorem State.countDraw_uq : (s.countDraw).uq = s.uq := rfl
@[simp] theorem State.countDraw_exitFlag : (s.countDraw).exitFlag = s.exitFlag := rfl
@[simp] theorem State.countDraw_raw : (s.countDraw).raw = s.raw := rfl
@[simp] theorem State.countDraw_updateTimers : (s.countDraw).updateTimers = s.updateTimers := rfl
@[simp] theorem State.countDraw_host : (s.countDraw).host = s.host := rfl
@[simp] theorem State.countDraw_loadOpen : (s.countDraw).loadOpen = s.loadOpen := rfl
@[simp] theorem State.countDraw_draws : (s.countDraw).draws = s.draws + 1 := rfl
@[simp] theorem State.countDraw_renderReqs : (s.countDraw).renderReqs = s.renderReqs := rfl
@[simp] theorem State.countDraw_reg (r : Reg) : (s.countDraw).reg r = s.reg r := rfl
@[simp] theorem State.countDraw_read (c : Nat) : (s.countDraw).read c = s.read c := rfl
@[simp] theorem State.countDraw_slot (j : Nibble) : (s.countDraw).slot j = s.slot j := rfl

/-! ### `State.pushReturn` -/

@[simp] theorem State.pushReturn_params : (s.pushReturn).params = s.params := rfl
@[simp] theorem State.pushReturn_mem : (s.pushReturn).mem = s.mem := rfl
@[simp] theorem State.pushReturn_v : (s.pushReturn).v = s.v := rfl
@[simp] theorem State.pushReturn_i : (s.pushReturn).i = s.i := rfl
@[simp] theorem State.pushReturn_pc : (s.pushReturn).pc = s.pc := rfl
@[simp] theorem State.pushReturn_sp : (s.pushReturn).sp = s.sp + 1 := rfl
@[simp] theorem State.pushReturn_stack : (s.pushReturn).stack = s.stack.set s.sp.toNat s.pc s.sp.isLt := rfl
@[simp] theorem State.pushReturn_dt : (s.pushReturn).dt = s.dt := rfl
@[simp] theorem State.pushReturn_st : (s.pushReturn).st = s.st := rfl
@[simp] theorem State.pushReturn_halted : (s.pushReturn).halted = s.halted := rfl
@[simp] theorem State.pushReturn_fault : (s.pushReturn).fault = s.fault := rfl
@[simp] theorem State.pushReturn_fb : (s.pushReturn).fb = s.fb := rfl
@[simp] theorem State.pushReturn_uq : (s.pushReturn).uq = s.uq := rfl
@[simp] theorem State.pushReturn_exitFlag : (s.pushReturn).exitFlag = s.exitFlag := rfl
@[simp] theorem State.pushReturn_raw : (s.pushReturn).raw = s.raw := rfl
@[simp] theorem State.pushReturn_updateTimers : (s.pushReturn).updateTimers = s.updateTimers := rfl
@[simp] theorem State.pushReturn_host : (s.pushReturn).host = s.host := rfl
@[simp] theorem State.pushReturn_loadOpen : (s.pushReturn).loadOpen = s.loadOpen := rfl
@[simp] theorem State.pushReturn_draws : (s.pushReturn).draws = s.draws := rfl
@[simp] theorem State.pushReturn_renderReqs : (s.pushReturn).renderReqs = s.renderReqs := rfl
@[simp] theorem State.pushReturn_reg (r : Reg) : (s.pushReturn).reg r = s.reg r := rfl
@[simp] theorem State.pushReturn_read (c : Nat) : (s.pushReturn).read c = s.read c := rfl

/-! ### `State.popReturn` -/

@[simp] theorem State.popReturn_params : (s.popReturn).params = s.params := rfl
@[simp] theorem State.popReturn_mem : (s.popReturn).mem = s.mem := rfl
@[simp] theorem State.popReturn_v : (s.popReturn).v = s.v := rfl
@[simp] theorem State.popReturn_i : (s.popReturn).i = s.i := rfl
@[simp] theorem State.popReturn_pc : (s.popReturn).pc = s.slot (s.sp - 1) := rfl
@[simp] theorem State.popReturn_sp : (s.popReturn).sp = s.sp - 1 := rfl
@[simp] theorem State.popReturn_stack : (s.popReturn).stack = s.stack := rfl
@[simp] theorem State.popReturn_dt : (s.popReturn).dt = s.dt := rfl
@[simp] theorem State.popReturn_st : (s.popReturn).st = s.st := rfl
@[simp] theorem State.popReturn_halted : (s.popReturn).halted = s.halted := rfl
@[simp] theorem State.popReturn_fault : (s.popReturn).fault = s.fault := rfl
@[simp] theorem State.popReturn_fb : (s.popReturn).fb = s.fb := rfl
@[simp] theorem State.popReturn_uq : (s.popReturn).uq = s.uq := rfl
@[simp] theorem State.popReturn_exitFlag : (s.popReturn).exitFlag = s.exitFlag := rfl
@[simp] theorem State.popReturn_raw : (s.popReturn).raw = s.raw := rfl
@[simp] theorem State.popReturn_updateTimers : (s.popReturn).updateTimers = s.updateTimers := rfl
@[simp] theorem State.popReturn_host : (s.popReturn).host = s.host := rfl
@[simp] theorem State.popReturn_loadOpen : (s.popReturn).loadOpen = s.loadOpen := rfl
@[simp] theorem State.popReturn_draws : (s.popReturn).draws = s.draws := rfl
@[simp] theorem State.popReturn_renderReqs : (s.popReturn).renderReqs = s.renderReqs := rfl
@[simp] theorem State.popReturn_reg (r : Reg) : (s.popReturn).reg r = s.reg r := rfl
@[simp] theorem State.popReturn_read (c : Nat) : (s.popReturn).read c = s.read c := rfl
@[simp] theorem State.popReturn_slot (j : Nibble) : (s.popReturn).slot j = s.slot j := rfl

/-! ### `State.storeBytes` -/

@[simp] theorem State.storeBytes_params (a : Nat) (bs : List Byte) : (s.storeBytes a bs).params = s.params := rfl
@[simp] theorem State.storeBytes_mem (a : Nat) (bs : List Byte) : (s.storeBytes a bs).mem = s.mem.writeBytes s.params.font a bs := rfl
@[simp] theorem State.storeBytes_v (a : Nat) (bs : List Byte) : (s.storeBytes a bs).v = s.v := rfl
@[simp] theorem State.storeBytes_i (a : Nat) (bs : List Byte) : (s.storeBytes a bs).i = s.i := rfl
@[simp] theorem State.storeBytes_pc (a : Nat) (bs : List Byte) : (s.storeBytes a bs).pc = s.pc := rfl
@[simp] theorem State.storeBytes_sp (a : Nat) (bs : List Byte) : (s.storeBytes a bs).sp = s.sp := rfl
@[simp] theorem State.storeBytes_stack (a : Nat) (bs : List Byte) : (s.storeBytes a bs).stack = s.stack := rfl
@[simp] theorem State.storeBytes_dt (a : Nat) (bs : List Byte) : (s.storeBytes a bs).dt = s.dt := rfl
@[simp] theorem State.storeBytes_st (a : Nat) (bs : List Byte) : (s.storeBytes a bs).st = s.st := rfl
@[simp] theorem State.storeBytes_halted (a : Nat) (bs : List Byte) : (s.storeBytes a bs).halted = s.halted := rfl
@[simp] theorem State.storeBytes_fault (a : Nat) (bs : List Byte) : (s.storeBytes a bs).fault = s.fault := rfl
@[simp] theorem State.storeBytes_fb (a : Nat) (bs : List Byte) : (s.storeBytes a bs).fb = s.fb := rfl
@[simp] theorem State.storeBytes_uq (a : Nat) (bs : List Byte) : (s.storeBytes a bs).uq = s.uq := rfl
@[simp] theorem State.storeBytes_exitFlag (a : Nat) (bs : List Byte) : (s.storeBytes a bs).exitFlag = s.exitFlag := rfl
@[simp] theorem State.storeBytes_raw (a : Nat) (bs : List Byte) : (s.storeBytes a bs).raw = s.raw := rfl
@[simp] theorem State.storeBytes_updateTimers (a : Nat) (bs : List Byte) : (s.storeBytes a bs).updateTimers = s.updateTimers := rfl
@[simp] theorem State.storeBytes_host (a : Nat) (bs : List Byte) : (s.storeBytes a bs).host = s.host := rfl
@[simp] theorem State.storeBytes_loadOpen (a : Nat) (bs : List Byte) : (s.storeBytes a bs).loadOpen = s.loadOpen := rfl
@[simp] theorem State.storeBytes_draws (a : Nat) (bs : List Byte) : (s.storeBytes a bs).draws = s.draws := rfl
@[simp] theorem State.storeBytes_renderReqs (a : Nat) (bs : List Byte) : (s.storeBytes a bs).renderReqs = s.renderReqs := rfl
@[simp] theorem State.storeBytes_reg (a : Nat) (bs : List Byte) (r : Reg) : (s.storeBytes a bs).reg r = s.reg r := rfl
@[simp] theorem State.storeBytes_slot (a : Nat) (bs : List Byte) (j : Nibble) : (s.storeBytes a bs).slot j = s.slot j := rfl

/-! ### `State.setFb` -/

@[simp] theorem State.setFb_params (f : Framebuffer) : (s.setFb f).params = s.params := rfl
@[simp] theorem State.setFb_mem (f : Framebuffer) : (s.setFb f).mem = s.mem := rfl
@[simp] theorem State.setFb_v (f : Framebuffer) : (s.setFb f).v = s.v := rfl
@[simp] theorem State.setFb_i (f : Framebuffer) : (s.setFb f).i = s.i := rfl
@[simp] theorem State.setFb_pc (f : Framebuffer) : (s.setFb f).pc = s.pc := rfl
@[simp] theorem State.setFb_sp (f : Framebuffer) : (s.setFb f).sp = s.sp := rfl
@[simp] theorem State.setFb_stack (f : Framebuffer) : (s.setFb f).stack = s.stack := rfl
@[simp] theorem State.setFb_dt (f : Framebuffer) : (s.setFb f).dt = s.dt := rfl
@[simp] theorem State.setFb_st (f : Framebuffer) : (s.setFb f).st = s.st := rfl
@[simp] theorem State.setFb_halted (f : Framebuffer) : (s.setFb f).halted = s.halted := rfl
@[simp] theorem State.setFb_fault (f : Framebuffer) : (s.setFb f).fault = s.fault := rfl
@[simp] theorem State.setFb_fb (f : Framebuffer) : (s.setFb f).fb = f := rfl
@[simp] theorem State.setFb_uq (f : Framebuffer) : (s.setFb f).uq = s.uq := rfl
@[simp] theorem State.setFb_exitFlag (f : Framebuffer) : (s.setFb f).exitFlag = s.exitFlag := rfl
@[simp] theorem State.setFb_raw (f : Framebuffer) : (s.setFb f).raw = s.raw := rfl
@[simp] theorem State.setFb_updateTimers (f : Framebuffer) : (s.setFb f).updateTimers = s.updateTimers := rfl
@[simp] theorem State.setFb_host (f : Framebuffer) : (s.setFb f).host = s.host := rfl
@[simp] theorem State.setFb_loadOpen (f : Framebuffer) : (s.setFb f).loadOpen = s.loadOpen := rfl
@[simp] theorem State.setFb_draws (f : Framebuffer) : (s.setFb f).draws = s.draws := rfl
@[simp] theorem State.setFb_renderReqs (f : Framebuffer) : (s.setFb f).renderReqs = s.renderReqs := rfl
@[simp] theorem State.setFb_reg (f : Framebuffer) (r : Reg) : (s.setFb f).reg r = s.reg r := rfl
@[simp] theorem State.setFb_read (f : Framebuffer) (c : Nat) : (s.setFb f).read c = s.read c := rfl
@[simp] theorem State.setFb_slot (f : Framebuffer) (j : Nibble) : (s.setFb f).slot j = s.slot j := rfl

/-! ### `State.setInput` -/

@[simp] theorem State.setInput_params (q : List Nibble) (rs : List RawEvent) (e : Bool) : (s.setInput q rs e).params = s.params := rfl
@[simp] theorem State.setInput_mem (q : List Nibble) (rs : List RawEvent) (e : Bool) : (s.setInput q rs e).mem = s.mem := rfl
@[simp] theorem State.setInput_v (q : List Nibble) (rs : List RawEvent) (e : Bool) : (s.setInput q rs e).v = s.v := rfl
@[simp] theorem State.setInput_i (q : List Nibble) (rs : List RawEvent) (e : Bool) : (s.setInput q rs e).i = s.i := rfl
@[simp] theorem State.setInput_pc (q : List Nibble) (rs : List RawEvent) (e : Bool) : (s.setInput q rs e).pc = s.pc := rfl
@[simp] theorem State.setInput_sp (q : List Nibble) (rs : List RawEvent) (e : Bool) : (s.setInput q rs e).sp = s.sp := rfl
@[simp] theorem State.setInput_stack (q : List Nibble) (rs : List RawEvent) (e : Bool) : (s.setInput q rs e).stack = s.stack := rfl
@[simp] theorem State.setInput_dt (q : List Nibble) (rs : List RawEvent) (e : Bool) : (s.setInput q rs e).dt = s.dt := rfl
@[simp] theorem State.setInput_st (q : List Nibble) (rs : List RawEvent) (e : Bool) : (s.setInput q rs e).st = s.st := rfl
@[simp] theorem State.setInput_halted (q : List Nibble) (rs : List RawEvent) (e : Bool) : (s.setInput q rs e).halted = s.halted := rfl
@[simp] theorem State.setInput_fault (q : List Nibble) (rs : List RawEvent) (e : Bool) : (s.setInput q rs e).fault = s.fault := rfl
@[simp] theorem State.setInput_fb (q : List Nibble) (rs : List RawEvent) (e : Bool) : (s.setInput q rs e).fb = s.fb := rfl
@[simp] theorem State.setInput_uq (q : List Nibble) (rs : List RawEvent) (e : Bool) : (s.setInput q rs e).uq = q := rfl
@[simp] theorem State.setInput_exitFlag (q : List Nibble) (rs : List RawEvent) (e : Bool) : (s.setInput q rs e).exitFlag = e := rfl
@[simp] theorem State.setInput_raw (q : List Nibble) (rs : List RawEvent) (e : Bool) : (s.setInput q rs e).raw = rs := rfl
@[simp] theorem State.setInput_updateTimers (q : List Nibble) (rs : List RawEvent) (e : Bool) : (s.setInput q rs e).updateTimers = s.updateTimers := rfl
@[simp] theorem State.setInput_host (q : List Nibble) (rs : List RawEvent) (e : Bool) : (s.setInput q rs e).host = s.host := rfl
@[simp] theorem State.setInput_loadOpen (q : List Nibble) (rs : List RawEvent) (e : Bool) : (s.setInput q rs e).loadOpen = s.loadOpen := rfl
@[simp] theorem State.setInput_draws (q : List Nibble) (rs : List RawEvent) (e : Bool) : (s.setInput q rs e).draws = s.draws := rfl
@[simp] theorem State.setInput_renderReqs (q : List Nibble) (rs : List RawEvent) (e : Bool) : (s.setInput q rs e).renderReqs = s.renderReqs := rfl
@[simp] theorem State.setInput_reg (q : List Nibble) (rs : List RawEvent) (e : Bool) (r : Reg) : (s.setInput q rs e).reg r = s.reg r := rfl
@[simp] theorem State.setInput_read (q : List Nibble) (rs : List RawEvent) (e : Bool) (c : Nat) : (s.setInput q rs e).read c = s.read c := rfl
@[simp] theorem State.setInput_slot (q : List Nibble) (rs : List RawEvent) (e : Bool) (j : Nibble) : (s.setInput q rs e).slot j = s.slot j := rfl

/-! ### `State.raise` -/

@[simp] theorem State.raise_params (f : Fault) : (s.raise f).params = s.params := rfl
@[simp] theorem State.raise_mem (f : Fault) : (s.raise f).mem = s.mem := rfl
@[simp] theorem State.raise_v (f : Fault) : (s.raise f).v = s.v := rfl
@[simp] theorem State.raise_i (f : Fault) : (s.raise f).i = s.i := rfl
@[simp] theorem State.raise_pc (f : Fault) : (s.raise f).pc = s.pc := rfl
@[simp] theorem State.raise_sp (f : Fault) : (s.raise f).sp = s.sp := rfl
@[simp] theorem State.raise_stack (f : Fault) : (s.raise f).stack = s.stack := rfl
@[simp] theorem State.raise_dt (f : Fault) : (s.raise f).dt = s.dt := rfl
@[simp] theorem State.raise_st (f : Fault) : (s.raise f).st = s.st := rfl
@[simp] theorem State.raise_halted (f : Fault) : (s.raise f).halted = true := rfl
@[simp] theorem State.raise_fault (f : Fault) : (s.raise f).fault = some f := rfl
@[simp] theorem State.raise_fb (f : Fault) : (s.raise f).fb = s.fb := rfl
@[simp] theorem State.raise_uq (f : Fault) : (s.raise f).uq = s.uq := rfl
@[simp] theorem State.raise_exitFlag (f : Fault) : (s.raise f).exitFlag = s.exitFlag := rfl
@[simp] theorem State.raise_raw (f : Fault) : (s.raise f).raw = s.raw := rfl
@[simp] theorem State.raise_updateTimers (f : Fault) : (s.raise f).updateTimers = s.updateTimers := rfl
@[simp] theorem State.raise_host (f : Fault) : (s.raise f).host = s.host := rfl
@[simp] theorem State.raise_loadOpen (f : Fault) : (s.raise f).loadOpen = s.loadOpen := rfl
@[simp] theorem State.raise_draws (f : Fault) : (s.raise f).draws = s.draws := rfl
@[simp] theorem State.raise_renderReqs (f : Fault) : (s.raise f).renderReqs = s.renderReqs := rfl
@[simp] theorem State.raise_reg (f : Fault) (r : Reg) : (s.raise f).reg r = s.reg r := rfl
@[simp] theorem State.raise_read (f : Fault) (c : Nat) : (s.raise f).read c = s.read c := rfl
@[simp] theorem State.raise_slot (f : Fault) (j : Nibble) : (s.raise f).slot j = s.slot j := rfl

/-! ### `State.clearFault` -/

@[simp] theorem State.clearFault_params : (s.clearFault).params = s.params := rfl
@[simp] theorem State.clearFault_mem : (s.clearFault).mem = s.mem := rfl
@[simp] theorem State.clearFault_v : (s.clearFault).v = s.v := rfl
@[simp] theorem State.clearFault_i : (s.clearFault).i = s.i := rfl
@[simp] theorem State.clearFault_pc : (s.clearFault).pc = s.pc := rfl
@[simp] theorem State.clearFault_sp : (s.clearFault).sp = s.sp := rfl
@[simp] theorem State.clearFault_stack : (s.clearFault).stack = s.stack := rfl
@[simp] theorem State.clearFault_dt : (s.clearFault).dt = s.dt := rfl
@[simp] theorem State.clearFault_st : (s.clearFault).st = s.st := rfl
@[simp] theorem State.clearFault_halted : (s.clearFault).halted = false := rfl
@[simp] theorem State.clearFault_fault : (s.clearFault).fault = none := rfl
@[simp] theorem State.clearFault_fb : (s.clearFault).fb = s.fb := rfl
@[simp] theorem State.clearFault_uq : (s.clearFault).uq = s.uq := rfl
@[simp] theorem State.clearFault_exitFlag : (s.clearFault).exitFlag = s.exitFlag := rfl
@[simp] theorem State.clearFault_raw : (s.clearFault).raw = s.raw := rfl
@[simp] theorem State.clearFault_updateTimers : (s.clearFault).updateTimers = s.updateTimers := rfl
@[simp] theorem State.clearFault_host : (s.clearFault).host = s.host := rfl
@[simp] theorem State.clearFault_loadOpen : (s.clearFault).loadOpen = s.loadOpen := rfl
@[simp] theorem State.clearFault_draws : (s.clearFault).draws = s.draws := rfl
@[simp] theorem State.clearFault_renderReqs : (s.clearFault).renderReqs = s.renderReqs := rfl
@[simp] theorem State.clearFault_reg (r : Reg) : (s.clearFault).reg r = s.reg r := rfl
@[simp] theorem State.clearFault_read (c : Nat) : (s.clearFault).read c = s.read c := rfl
@[simp] theorem State.clearFault_slot (j : Nibble) : (s.clearFault).slot j = s.slot j := rfl

/-! ### `State.closeLoad` -/

@[simp] theorem State.closeLoad_params : (s.closeLoad).params = s.params := rfl
@[simp] theorem State.closeLoad_mem : (s.closeLoad).mem = s.mem := rfl
@[simp] theorem State.closeLoad_v : (s.closeLoad).v = s.v := rfl
@[simp] theorem State.closeLoad_i : (s.closeLoad).i = s.i := rfl
@[simp] theorem State.closeLoad_pc : (s.closeLoad).pc = s.pc := rfl
@[simp] theorem State.closeLoad_sp : (s.closeLoad).sp = s.sp := rfl
@[simp] theorem State.closeLoad_stack : (s.closeLoad).stack = s.stack := rfl
@[simp] theorem State.closeLoad_dt : (s.closeLoad).dt = s.dt := rfl
@[simp] theorem State.closeLoad_st : (s.closeLoad).st = s.st := rfl
@[simp] theorem State.closeLoad_halted : (s.closeLoad).halted = s.halted := rfl
@[simp] theorem State.closeLoad_fault : (s.closeLoad).fault = s.fault := rfl
@[simp] theorem State.closeLoad_fb : (s.closeLoad).fb = s.fb := rfl
@[simp] theorem State.closeLoad_uq : (s.closeLoad).uq = s.uq := rfl
@[simp] theorem State.closeLoad_exitFlag : (s.closeLoad).exitFlag = s.exitFlag := rfl
@[simp] theorem State.closeLoad_raw : (s.closeLoad).raw = s.raw := rfl
@[simp] theorem State.closeLoad_updateTimers : (s.closeLoad).updateTimers = s.updateTimers := rfl
@[simp] theorem State.closeLoad_host : (s.closeLoad).host = s.host := rfl
@[simp] theorem State.closeLoad_loadOpen : (s.closeLoad).loadOpen = false := rfl
@[simp] theorem State.closeLoad_draws : (s.closeLoad).draws = s.draws := rfl
@[simp] theorem State.closeLoad_renderReqs : (s.closeLoad).renderReqs = s.renderReqs := rfl
@[simp] theorem State.closeLoad_reg (r : Reg) : (s.closeLoad).reg r = s.reg r := rfl
@[simp] theorem State.closeLoad_read (c : Nat) : (s.closeLoad).read c = s.read c := rfl
@[simp] theorem State.closeLoad_slot (j : Nibble) : (s.closeLoad).slot j = s.slot j := rfl

/-! ### `State.pulseRender` -/

@[simp] theorem State.pulseRender_params : (s.pulseRender).params = s.params := rfl
@[simp] theorem State.pulseRender_mem : (s.pulseRender).mem = s.mem := rfl
@[simp] theorem State.pulseRender_v : (s.pulseRender).v = s.v := rfl
@[simp] theorem State.pulseRender_i : (s.pulseRender).i = s.i := rfl
@[simp] theorem State.pulseRender_pc : (s.pulseRender).pc = s.pc := rfl
@[simp] theorem State.pulseRender_sp : (s.pulseRender).sp = s.sp := rfl
@[simp] theorem State.pulseRender_stack : (s.pulseRender).stack = s.stack := rfl
@[simp] theorem State.pulseRender_dt : (s.pulseRender).dt = s.dt := rfl
@[simp] theorem State.pulseRender_st : (s.pulseRender).st = s.st := rfl
@[simp] theorem State.pulseRender_halted : (s.pulseRender).halted = s.halted := rfl
@[simp] theorem State.pulseRender_fault : (s.pulseRender).fault = s.fault := rfl
@[simp] theorem State.pulseRender_fb : (s.pulseRender).fb = s.fb := rfl
@[simp] theorem State.pulseRender_uq : (s.pulseRender).uq = s.uq := rfl
@[simp] theorem State.pulseRender_exitFlag : (s.pulseRender).exitFlag = s.exitFlag := rfl
@[simp] theorem State.pulseRender_raw : (s.pulseRender).raw = s.raw := rfl
@[simp] theorem State.pulseRender_updateTimers : (s.pulseRender).updateTimers = s.updateTimers := rfl
@[simp] theorem State.pulseRender_host : (s.pulseRender).host = s.host := rfl
@[simp] theorem State.pulseRender_loadOpen : (s.pulseRender).loadOpen = s.loadOpen := rfl
@[simp] theorem State.pulseRender_draws : (s.pulseRender).draws = s.draws := rfl
@[simp] theorem State.pulseRender_renderReqs : (s.pulseRender).renderReqs = s.renderReqs + 1 := rfl
@[simp] theorem State.pulseRender_reg (r : Reg) : (s.pulseRender).reg r = s.reg r := rfl
@[simp] theorem State.pulseRender_read (c : Nat) : (s.pulseRender).read c = s.read c := rfl
@[simp] theorem State.pulseRender_slot (j : Nibble) : (s.pulseRender).slot j = s.slot j := rfl

/-! ### `State.pushRaw` -/

@[simp] theorem State.pushRaw_params (e : RawEvent) : (s.pushRaw e).params = s.params := rfl
@[simp] theorem State.pushRaw_mem (e : RawEvent) : (s.pushRaw e).mem = s.mem := rfl
@[simp] theorem State.pushRaw_v (e : RawEvent) : (s.pushRaw e).v = s.v := rfl
@[simp] theorem State.pushRaw_i (e : RawEvent) : (s.pushRaw e).i = s.i := rfl
@[simp] theorem State.pushRaw_pc (e : RawEvent) : (s.pushRaw e).pc = s.pc := rfl
@[simp] theorem State.pushRaw_sp (e : RawEvent) : (s.pushRaw e).sp = s.sp := rfl
@[simp] theorem State.pushRaw_stack (e : RawEvent) : (s.pushRaw e).stack = s.stack := rfl
@[simp] theorem State.pushRaw_dt (e : RawEvent) : (s.pushRaw e).dt = s.dt := rfl
@[simp] theorem State.pushRaw_st (e : RawEvent) : (s.pushRaw e).st = s.st := rfl
@[simp] theorem State.pushRaw_halted (e : RawEvent) : (s.pushRaw e).halted = s.halted := rfl
@[simp] theorem State.pushRaw_fault (e : RawEvent) : (s.pushRaw e).fault = s.fault := rfl
@[simp] theorem State.pushRaw_fb (e : RawEvent) : (s.pushRaw e).fb = s.fb := rfl
@[simp] theorem State.pushRaw_uq (e : RawEvent) : (s.pushRaw e).uq = s.uq := rfl
@[simp] theorem State.pushRaw_exitFlag (e : RawEvent) : (s.pushRaw e).exitFlag = s.exitFlag := rfl
@[simp] theorem State.pushRaw_raw (e : RawEvent) : (s.pushRaw e).raw = s.raw ++ [e] := rfl
@[simp] theorem State.pushRaw_updateTimers (e : RawEvent) : (s.pushRaw e).updateTimers = s.updateTimers := rfl
@[simp] theorem State.pushRaw_host (e : RawEvent) : (s.pushRaw e).host = s.host := rfl
@[simp] theorem State.pushRaw_loadOpen (e : RawEvent) : (s.pushRaw e).loadOpen = s.loadOpen := rfl
@[simp] theorem State.pushRaw_draws (e : RawEvent) : (s.pushRaw e).draws = s.draws := rfl
@[simp] theorem State.pushRaw_renderReqs (e : RawEvent) : (s.pushRaw e).renderReqs = s.renderReqs := rfl
@[simp] theorem State.pushRaw_reg (e : RawEvent) (r : Reg) : (s.pushRaw e).reg r = s.reg r := rfl
@[simp] theorem State.pushRaw_read (e : RawEvent) (c : Nat) : (s.pushRaw e).read c = s.read c := rfl
@[simp] theorem State.pushRaw_slot (e : RawEvent) (j : Nibble) : (s.pushRaw e).slot j = s.slot j := rfl

/-! ### `State.setUpdateTimers` -/

@[simp] theorem State.setUpdateTimers_params (b : Bool) : (s.setUpdateTimers b).params = s.params := rfl
@[simp] theorem State.setUpdateTimers_mem (b : Bool) : (s.setUpdateTimers b).mem = s.mem := rfl
@[simp] theorem State.setUpdateTimers_v (b : Bool) : (s.setUpdateTimers b).v = s.v := rfl
@[simp] theorem State.setUpdateTimers_i (b : Bool) : (s.setUpdateTimers b).i = s.i := rfl
@[simp] theorem State.setUpdateTimers_pc (b : Bool) : (s.setUpdateTimers b).pc = s.pc := rfl
@[simp] theorem State.setUpdateTimers_sp (b : Bool) : (s.setUpdateTimers b).sp = s.sp := rfl
@[simp] theorem State.setUpdateTimers_stack (b : Bool) : (s.setUpdateTimers b).stack = s.stack := rfl
@[simp] theorem State.setUpdateTimers_dt (b : Bool) : (s.setUpdateTimers b).dt = s.dt := rfl
@[simp] theorem State.setUpdateTimers_st (b : Bool) : (s.setUpdateTimers b).st = s.st := rfl
@[simp] theorem State.setUpdateTimers_halted (b : Bool) : (s.setUpdateTimers b).halted = s.halted := rfl
@[simp] theorem State.setUpdateTimers_fault (b : Bool) : (s.setUpdateTimers b).fault = s.fault := rfl
@[simp] theorem State.setUpdateTimers_fb (b : Bool) : (s.setUpdateTimers b).fb = s.fb := rfl
@[simp] theorem State.setUpdateTimers_uq (b : Bool) : (s.setUpdateTimers b).uq = s.uq := rfl
@[simp] theorem State.setUpdateTimers_exitFlag (b : Bool) : (s.setUpdateTimers b).exitFlag = s.exitFlag := rfl
@[simp] theorem State.setUpdateTimers_raw (b : Bool) : (s.setUpdateTimers b).raw = s.raw := rfl
@[simp] theorem State.setUpdateTimers_updateTimers (b : Bool) : (s.setUpdateTimers b).updateTimers = b := rfl
@[simp] theorem State.setUpdateTimers_host (b : Bool) : (s.setUpdateTimers b).host = s.host := rfl
@[simp] theorem State.setUpdateTimers_loadOpen (b : Bool) : (s.setUpdateTimers b).loadOpen = s.loadOpen := rfl
@[simp] theorem State.setUpdateTimers_draws (b : Bool) : (s.setUpdateTimers b).draws = s.draws := rfl
@[simp] theorem State.setUpdateTimers_renderReqs (b : Bool) : (s.setUpdateTimers b).renderReqs = s.renderReqs := rfl
@[simp] theorem State.setUpdateTimers_reg (b : Bool) (r : Reg) : (s.setUpdateTimers b).reg r = s.reg r := rfl
@[simp] theorem State.setUpdateTimers_read (b : Bool) (c : Nat) : (s.setUpdateTimers b).read c = s.read c := rfl
@[simp] theorem State.setUpdateTimers_slot (b : Bool) (j : Nibble) : (s.setUpdateTimers b).slot j = s.slot j := rfl

/-! ### `State.setHost` -/

@[simp] theorem State.setHost_params (ms : List HostMove) : (s.setHost ms).params = s.params := rfl
@[simp] theorem State.setHost_mem (ms : List HostMove) : (s.setHost ms).mem = s.mem := rfl
@[simp] theorem State.setHost_v (ms : List HostMove) : (s.setHost ms).v = s.v := rfl
@[simp] theorem State.setHost_i (ms : List HostMove) : (s.setHost ms).i = s.i := rfl
@[simp] theorem State.setHost_pc (ms : List HostMove) : (s.setHost ms).pc = s.pc := rfl
@[simp] theorem State.setHost_sp (ms : List HostMove) : (s.setHost ms).sp = s.sp := rfl
@[simp] theorem State.setHost_stack (ms : List HostMove) : (s.setHost ms).stack = s.stack := rfl
@[simp] theorem State.setHost_dt (ms : List HostMove) : (s.setHost ms).dt = s.dt := rfl
@[simp] theorem State.setHost_st (ms : List HostMove) : (s.setHost ms).st = s.st := rfl
@[simp] theorem State.setHost_halted (ms : List HostMove) : (s.setHost ms).halted = s.halted := rfl
@[simp] theorem State.setHost_fault (ms : List HostMove) : (s.setHost ms).fault = s.fault := rfl
@[simp] theorem State.setHost_fb (ms : List HostMove) : (s.setHost ms).fb = s.fb := rfl
@[simp] theorem State.setHost_uq (ms : List HostMove) : (s.setHost ms).uq = s.uq := rfl
@[simp] theorem State.setHost_exitFlag (ms : List HostMove) : (s.setHost ms).exitFlag = s.exitFlag := rfl
@[simp] theorem State.setHost_raw (ms : List HostMove) : (s.setHost ms).raw = s.raw := rfl
@[simp] theorem State.setHost_updateTimers (ms : List HostMove) : (s.setHost ms).updateTimers = s.updateTimers := rfl
@[simp] theorem State.setHost_host (ms : List HostMove) : (s.setHost ms).host = ms := rfl
@[simp] theorem State.setHost_loadOpen (ms : List HostMove) : (s.setHost ms).loadOpen = s.loadOpen := rfl
@[simp] theorem State.setHost_draws (ms : List HostMove) : (s.setHost ms).draws = s.draws := rfl
@[simp] theorem State.setHost_renderReqs (ms : List HostMove) : (s.setHost ms).renderReqs = s.renderReqs := rfl
@[simp] theorem State.setHost_reg (ms : List HostMove) (r : Reg) : (s.setHost ms).reg r = s.reg r := rfl
@[simp] theorem State.setHost_read (ms : List HostMove) (c : Nat) : (s.setHost ms).read c = s.read c := rfl
@[simp] theorem State.setHost_slot (ms : List HostMove) (j : Nibble) : (s.setHost ms).slot j = s.slot j := rfl

end Sys2Proof.Machine
end

