-- ==== Sys2Proof/Laws/Ops.lean ====
section
/-!
SUPPORT. What the shared register, stack, operand and flag operations do, once each.
-/

namespace Sys2Proof.Machine

/-! ## Registers and stack slots -/

/-- Reading a register after a write to one. -/
theorem State.reg_setReg (s : State) (x r : Reg) (b : Byte) :
    (s.setReg x b).reg r = if r = x then b else s.reg r := by
  simp only [State.reg, State.setReg, Vector.getElem_set, BitVec.toNat_inj]
  by_cases h : x = r
  · simp [h]
  · simp [h, Ne.symm h]

@[simp] theorem State.reg_setReg_self (s : State) (x : Reg) (b : Byte) : (s.setReg x b).reg x = b := by
  simp [State.reg_setReg]

@[simp] theorem State.reg_setReg_ne (s : State) {x r : Reg} (b : Byte) (h : r ≠ x) :
    (s.setReg x b).reg r = s.reg r := by
  simp [State.reg_setReg, h]

/-- The slots after a push (R142). -/
theorem State.slot_pushReturn (s : State) (j : Nibble) :
    s.pushReturn.slot j = if j = s.sp then s.pc else s.slot j := by
  simp only [State.slot, State.pushReturn_stack, Vector.getElem_set, BitVec.toNat_inj]
  by_cases h : s.sp = j
  · simp [h]
  · simp [h, Ne.symm h]

@[simp] theorem State.slot_popReturn (s : State) (j : Nibble) : s.popReturn.slot j = s.slot j := rfl
@[simp] theorem State.reset_reg (r : Reg) : State.reset.reg r = 0 := by simp [State.reg, State.reset]
@[simp] theorem State.reset_slot (j : Nibble) : State.reset.slot j = 0 := by simp [State.slot, State.reset]

/-! ## Operands -/

@[simp] theorem imm16_toNat (aaa : Imm12) : (imm16 aaa).toNat = aaa.toNat := by
  simp [imm16]; omega

@[simp] theorem State.reg16_toNat (s : State) (x : Reg) : (s.reg16 x).toNat = (s.reg x).toNat := by
  simp [State.reg16]; omega

/-- A taken or not taken skip, field by field: only the pc can move. -/
theorem State.skipIf_pc (s : State) (c : Bool) : (s.skipIf c).pc = if c then s.pc + 2 else s.pc := by
  unfold State.skipIf; split <;> simp

/-- A skip is the state with another pc. -/
theorem State.skipIf_eq (s : State) (c : Bool) : s.skipIf c = s.setPc (if c then s.pc + 2 else s.pc) := by
  unfold State.skipIf; split <;> rfl

@[simp] theorem State.regBlock_length (s : State) (x : Reg) : (s.regBlock x).length = blockLength x := by
  simp [State.regBlock]

@[simp] theorem State.regBlock_getElem (s : State) (x : Reg) (k : Nat) (h : k < (s.regBlock x).length) :
    (s.regBlock x)[k] = s.reg (BitVec.ofNat 4 k) := by
  simp [State.regBlock]

theorem blockLength_le (x : Reg) : blockLength x ≤ 16 := by
  have := x.isLt
  simp only [blockLength]; omega

/-- `loadRegs` touches nothing but the registers. -/
theorem State.loadRegs_eq (s : State) (a n : Nat) : s.loadRegs a n = { s with v := (s.loadRegs a n).v } := by
  induction n with
  | zero => rfl
  | succ n ih => rw [State.loadRegs, ih]; rfl

/-- What a register holds after the first `n` of the block have been loaded (R199). -/
theorem State.reg_loadRegs (s : State) (a n : Nat) (hn : n ≤ 16) (r : Reg) :
    (s.loadRegs a n).reg r = if r.toNat < n then s.read (a + r.toNat) else s.reg r := by
  induction n with
  | zero => simp [State.loadRegs]
  | succ n ih =>
    rw [State.loadRegs, State.reg_setReg, ih (by omega)]
    by_cases h : r = BitVec.ofNat 4 n
    · have hr : r.toNat = n := by
        rw [h, BitVec.toNat_ofNat]
        exact Nat.mod_eq_of_lt (by omega)
      simp [h ▸ hr, h]
    · have hr : r.toNat ≠ n := by
        intro hr
        exact h (by rw [← hr, BitVec.ofNat_toNat, BitVec.setWidth_eq])
      rw [if_neg h]
      by_cases hlt : r.toNat < n
      · rw [if_pos hlt, if_pos (by omega)]
      · rw [if_neg hlt, if_neg (by omega)]

/-- The range check, as an inequality (R66, R67). -/
theorem inRange_iff (base count : Nat) : inRange base count = true ↔ count = 0 ∨ base + count ≤ 4096 := by
  simp [inRange, Config.memSize]

@[simp] theorem decimalDigits_length (b : Byte) : (decimalDigits b).length = 3 := rfl

/-! ## Flags -/

/-- The two writes in either order: with x = F the second one wins (R161, log 10). -/
theorem State.reg_writeFlagged (s : State) (x r : Reg) (result flag : Byte) :
    (s.writeFlagged x result flag).reg r =
      match s.params.vfOrder with
      | .flagThenResult => if r = x then result else if r = vf then flag else s.reg r
      | .resultThenFlag => if r = vf then flag else if r = x then result else s.reg r := by
  unfold State.writeFlagged
  cases s.params.vfOrder <;> simp only [State.reg_setReg]

/-- The two writes leave every other register. -/
theorem State.reg_writeFlagged_other (s : State) {x r : Reg} (result flag : Byte) (hx : r ≠ x) (hv : r ≠ vf) :
    (s.writeFlagged x result flag).reg r = s.reg r := by
  rw [State.reg_writeFlagged]
  cases s.params.vfOrder <;> simp only [if_neg hx, if_neg hv]

/-- `writeFlagged` touches nothing but the registers. -/
theorem State.writeFlagged_eq (s : State) (x : Reg) (result flag : Byte) :
    s.writeFlagged x result flag = { s with v := (s.writeFlagged x result flag).v } := by
  unfold State.writeFlagged
  split <;> rfl

/-- The result stays in Vx unless x = F and the flag is written second. -/
theorem State.reg_writeFlagged_result (s : State) (x : Reg) (result flag : Byte)
    (h : x ≠ vf ∨ s.params.vfOrder = .flagThenResult) : (s.writeFlagged x result flag).reg x = result := by
  rw [State.reg_writeFlagged]
  cases hv : s.params.vfOrder
  · simp
  · simp_all

/-- The flag stays in VF unless x = F and the result is written second. -/
theorem State.reg_writeFlagged_flag (s : State) (x : Reg) (result flag : Byte)
    (h : x ≠ vf ∨ s.params.vfOrder = .resultThenFlag) : (s.writeFlagged x result flag).reg vf = flag := by
  rw [State.reg_writeFlagged]
  cases hv : s.params.vfOrder
  · have hx : vf ≠ x := Ne.symm (h.resolve_right (by simp [hv]))
    simp only [if_neg hx, if_true]
  · simp

/-! ## The fields the shared operations leave alone -/

@[simp] theorem State.skipIf_params (s : State) (c : Bool) : (s.skipIf c).params = s.params := by rw [State.skipIf_eq]; rfl
@[simp] theorem State.skipIf_mem (s : State) (c : Bool) : (s.skipIf c).mem = s.mem := by rw [State.skipIf_eq]; rfl
@[simp] theorem State.skipIf_v (s : State) (c : Bool) : (s.skipIf c).v = s.v := by rw [State.skipIf_eq]; rfl
@[simp] theorem State.skipIf_i (s : State) (c : Bool) : (s.skipIf c).i = s.i := by rw [State.skipIf_eq]; rfl
@[simp] theorem State.skipIf_sp (s : State) (c : Bool) : (s.skipIf c).sp = s.sp := by rw [State.skipIf_eq]; rfl
@[simp] theorem State.skipIf_stack (s : State) (c : Bool) : (s.skipIf c).stack = s.stack := by rw [State.skipIf_eq]; rfl
@[simp] theorem State.skipIf_dt (s : State) (c : Bool) : (s.skipIf c).dt = s.dt := by rw [State.skipIf_eq]; rfl
@[simp] theorem State.skipIf_st (s : State) (c : Bool) : (s.skipIf c).st = s.st := by rw [State.skipIf_eq]; rfl
@[simp] theorem State.skipIf_halted (s : State) (c : Bool) : (s.skipIf c).halted = s.halted := by rw [State.skipIf_eq]; rfl
@[simp] theorem State.skipIf_fault (s : State) (c : Bool) : (s.skipIf c).fault = s.fault := by rw [State.skipIf_eq]; rfl
@[simp] theorem State.skipIf_fb (s : State) (c : Bool) : (s.skipIf c).fb = s.fb := by rw [State.skipIf_eq]; rfl
@[simp] theorem State.skipIf_uq (s : State) (c : Bool) : (s.skipIf c).uq = s.uq := by rw [State.skipIf_eq]; rfl
@[simp] theorem State.skipIf_exitFlag (s : State) (c : Bool) : (s.skipIf c).exitFlag = s.exitFlag := by rw [State.skipIf_eq]; rfl
@[simp] theorem State.skipIf_raw (s : State) (c : Bool) : (s.skipIf c).raw = s.raw := by rw [State.skipIf_eq]; rfl
@[simp] theorem State.skipIf_updateTimers (s : State) (c : Bool) : (s.skipIf c).updateTimers = s.updateTimers := by rw [State.skipIf_eq]; rfl
@[simp] theorem State.skipIf_host (s : State) (c : Bool) : (s.skipIf c).host = s.host := by rw [State.skipIf_eq]; rfl
@[simp] theorem State.skipIf_loadOpen (s : State) (c : Bool) : (s.skipIf c).loadOpen = s.loadOpen := by rw [State.skipIf_eq]; rfl
@[simp] theorem State.skipIf_draws (s : State) (c : Bool) : (s.skipIf c).draws = s.draws := by rw [State.skipIf_eq]; rfl
@[simp] theorem State.skipIf_renderReqs (s : State) (c : Bool) : (s.skipIf c).renderReqs = s.renderReqs := by rw [State.skipIf_eq]; rfl
@[simp] theorem State.skipIf_reg (s : State) (c : Bool) (r : Reg) : (s.skipIf c).reg r = s.reg r := by simp [State.reg]
@[simp] theorem State.skipIf_read (s : State) (c : Bool) (a : Nat) : (s.skipIf c).read a = s.read a := by simp [State.read]
@[simp] theorem State.skipIf_slot (s : State) (c : Bool) (j : Nibble) : (s.skipIf c).slot j = s.slot j := by simp [State.slot]
@[simp] theorem State.loadRegs_params (s : State) (a n : Nat) : (s.loadRegs a n).params = s.params := by rw [State.loadRegs_eq]
@[simp] theorem State.loadRegs_mem (s : State) (a n : Nat) : (s.loadRegs a n).mem = s.mem := by rw [State.loadRegs_eq]
@[simp] theorem State.loadRegs_i (s : State) (a n : Nat) : (s.loadRegs a n).i = s.i := by rw [State.loadRegs_eq]
@[simp] theorem State.loadRegs_pc (s : State) (a n : Nat) : (s.loadRegs a n).pc = s.pc := by rw [State.loadRegs_eq]
@[simp] theorem State.loadRegs_sp (s : State) (a n : Nat) : (s.loadRegs a n).sp = s.sp := by rw [State.loadRegs_eq]
@[simp] theorem State.loadRegs_stack (s : State) (a n : Nat) : (s.loadRegs a n).stack = s.stack := by rw [State.loadRegs_eq]
@[simp] theorem State.loadRegs_dt (s : State) (a n : Nat) : (s.loadRegs a n).dt = s.dt := by rw [State.loadRegs_eq]
@[simp] theorem State.loadRegs_st (s : State) (a n : Nat) : (s.loadRegs a n).st = s.st := by rw [State.loadRegs_eq]
@[simp] theorem State.loadRegs_halted (s : State) (a n : Nat) : (s.loadRegs a n).halted = s.halted := by rw [State.loadRegs_eq]
@[simp] theorem State.loadRegs_fault (s : State) (a n : Nat) : (s.loadRegs a n).fault = s.fault := by rw [State.loadRegs_eq]
@[simp] theorem State.loadRegs_fb (s : State) (a n : Nat) : (s.loadRegs a n).fb = s.fb := by rw [State.loadRegs_eq]
@[simp] theorem State.loadRegs_uq (s : State) (a n : Nat) : (s.loadRegs a n).uq = s.uq := by rw [State.loadRegs_eq]
@[simp] theorem State.loadRegs_exitFlag (s : State) (a n : Nat) : (s.loadRegs a n).exitFlag = s.exitFlag := by rw [State.loadRegs_eq]
@[simp] theorem State.loadRegs_raw (s : State) (a n : Nat) : (s.loadRegs a n).raw = s.raw := by rw [State.loadRegs_eq]
@[simp] theorem State.loadRegs_updateTimers (s : State) (a n : Nat) : (s.loadRegs a n).updateTimers = s.updateTimers := by rw [State.loadRegs_eq]
@[simp] theorem State.loadRegs_host (s : State) (a n : Nat) : (s.loadRegs a n).host = s.host := by rw [State.loadRegs_eq]
@[simp] theorem State.loadRegs_loadOpen (s : State) (a n : Nat) : (s.loadRegs a n).loadOpen = s.loadOpen := by rw [State.loadRegs_eq]
@[simp] theorem State.loadRegs_draws (s : State) (a n : Nat) : (s.loadRegs a n).draws = s.draws := by rw [State.loadRegs_eq]
@[simp] theorem State.loadRegs_renderReqs (s : State) (a n : Nat) : (s.loadRegs a n).renderReqs = s.renderReqs := by rw [State.loadRegs_eq]
@[simp] theorem State.loadRegs_read (s : State) (a n c : Nat) : (s.loadRegs a n).read c = s.read c := by simp [State.read]
@[simp] theorem State.loadRegs_slot (s : State) (a n : Nat) (j : Nibble) : (s.loadRegs a n).slot j = s.slot j := by simp [State.slot]
@[simp] theorem State.writeFlagged_params (s : State) (x : Reg) (b c : Byte) : (s.writeFlagged x b c).params = s.params := by rw [State.writeFlagged_eq]
@[simp] theorem State.writeFlagged_mem (s : State) (x : Reg) (b c : Byte) : (s.writeFlagged x b c).mem = s.mem := by rw [State.writeFlagged_eq]
@[simp] theorem State.writeFlagged_i (s : State) (x : Reg) (b c : Byte) : (s.writeFlagged x b c).i = s.i := by rw [State.writeFlagged_eq]
@[simp] theorem State.writeFlagged_pc (s : State) (x : Reg) (b c : Byte) : (s.writeFlagged x b c).pc = s.pc := by rw [State.writeFlagged_eq]
@[simp] theorem State.writeFlagged_sp (s : State) (x : Reg) (b c : Byte) : (s.writeFlagged x b c).sp = s.sp := by rw [State.writeFlagged_eq]
@[simp] theorem State.writeFlagged_stack (s : State) (x : Reg) (b c : Byte) : (s.writeFlagged x b c).stack = s.stack := by rw [State.writeFlagged_eq]
@[simp] theorem State.writeFlagged_dt (s : State) (x : Reg) (b c : Byte) : (s.writeFlagged x b c).dt = s.dt := by rw [State.writeFlagged_eq]
@[simp] theorem State.writeFlagged_st (s : State) (x : Reg) (b c : Byte) : (s.writeFlagged x b c).st = s.st := by rw [State.writeFlagged_eq]
@[simp] theorem State.writeFlagged_halted (s : State) (x : Reg) (b c : Byte) : (s.writeFlagged x b c).halted = s.halted := by rw [State.writeFlagged_eq]
@[simp] theorem State.writeFlagged_fault (s : State) (x : Reg) (b c : Byte) : (s.writeFlagged x b c).fault = s.fault := by rw [State.writeFlagged_eq]
@[simp] theorem State.writeFlagged_fb (s : State) (x : Reg) (b c : Byte) : (s.writeFlagged x b c).fb = s.fb := by rw [State.writeFlagged_eq]
@[simp] theorem State.writeFlagged_uq (s : State) (x : Reg) (b c : Byte) : (s.writeFlagged x b c).uq = s.uq := by rw [State.writeFlagged_eq]
@[simp] theorem State.writeFlagged_exitFlag (s : State) (x : Reg) (b c : Byte) : (s.writeFlagged x b c).exitFlag = s.exitFlag := by rw [State.writeFlagged_eq]
@[simp] theorem State.writeFlagged_raw (s : State) (x : Reg) (b c : Byte) : (s.writeFlagged x b c).raw = s.raw := by rw [State.writeFlagged_eq]
@[simp] theorem State.writeFlagged_updateTimers (s : State) (x : Reg) (b c : Byte) : (s.writeFlagged x b c).updateTimers = s.updateTimers := by rw [State.writeFlagged_eq]
@[simp] theorem State.writeFlagged_host (s : State) (x : Reg) (b c : Byte) : (s.writeFlagged x b c).host = s.host := by rw [State.writeFlagged_eq]
@[simp] theorem State.writeFlagged_loadOpen (s : State) (x : Reg) (b c : Byte) : (s.writeFlagged x b c).loadOpen = s.loadOpen := by rw [State.writeFlagged_eq]
@[simp] theorem State.writeFlagged_draws (s : State) (x : Reg) (b c : Byte) : (s.writeFlagged x b c).draws = s.draws := by rw [State.writeFlagged_eq]
@[simp] theorem State.writeFlagged_renderReqs (s : State) (x : Reg) (b c : Byte) : (s.writeFlagged x b c).renderReqs = s.renderReqs := by rw [State.writeFlagged_eq]
@[simp] theorem State.writeFlagged_read (s : State) (x : Reg) (b c : Byte) (a : Nat) : (s.writeFlagged x b c).read a = s.read a := by simp [State.read]
@[simp] theorem State.writeFlagged_slot (s : State) (x : Reg) (b c : Byte) (j : Nibble) : (s.writeFlagged x b c).slot j = s.slot j := by simp [State.slot]

@[simp] theorem flagByte_true : flagByte true = 1 := rfl
@[simp] theorem flagByte_false : flagByte false = 0 := rfl

theorem addResult_toNat (a b : Byte) : (addResult a b).toNat = (a.toNat + b.toNat) % 256 := by
  simp [addResult]

theorem subResult_toNat (a b : Byte) : (subResult a b).toNat = (256 + a.toNat - b.toNat) % 256 := by
  simp [subResult]

theorem shrResult_toNat (a : Byte) : (shrResult a).toNat = a.toNat / 2 := by
  simp [shrResult]; omega

theorem shlResult_toNat (a : Byte) : (shlResult a).toNat = a.toNat * 2 % 256 := by
  simp [shlResult]

end Sys2Proof.Machine
end

