-- ==== Sys2Proof/Laws/Devices.lean ====
section
/-!
SUPPORT. What the framebuffer, input and timer operations do, once each.
-/

namespace Sys2Proof.Machine

/-! ## Framebuffer -/

@[simp] theorem clearedFb_pixel (r c : Nat) : clearedFb.pixel r c = false := by
  unfold Framebuffer.pixel clearedFb
  split <;> simp

@[simp] theorem drawSprite_nil (x y : Nat) (f : Framebuffer) : drawSprite x y [] f = (f, false) := rfl

/-- Drawing touches the framebuffer and VF, nothing else (R216). -/
theorem State.draw_eq (s : State) (cx cy : Nat) (bytes : List Byte) :
    s.draw cx cy bytes = { s with fb := (s.draw cx cy bytes).fb, v := (s.draw cx cy bytes).v } := rfl

@[simp] theorem State.draw_fb (s : State) (cx cy : Nat) (bytes : List Byte) :
    (s.draw cx cy bytes).fb = (drawSprite cx cy bytes s.fb).1 := rfl

theorem State.draw_reg (s : State) (cx cy : Nat) (bytes : List Byte) (r : Reg) :
    (s.draw cx cy bytes).reg r = if r = vf then flagByte (drawSprite cx cy bytes s.fb).2 else s.reg r := by
  simp [State.draw, State.reg_setReg]

@[simp] theorem State.draw_params (s : State) (x y : Nat) (bs : List Byte) : (s.draw x y bs).params = s.params := rfl
@[simp] theorem State.draw_mem (s : State) (x y : Nat) (bs : List Byte) : (s.draw x y bs).mem = s.mem := rfl
@[simp] theorem State.draw_i (s : State) (x y : Nat) (bs : List Byte) : (s.draw x y bs).i = s.i := rfl
@[simp] theorem State.draw_pc (s : State) (x y : Nat) (bs : List Byte) : (s.draw x y bs).pc = s.pc := rfl
@[simp] theorem State.draw_sp (s : State) (x y : Nat) (bs : List Byte) : (s.draw x y bs).sp = s.sp := rfl
@[simp] theorem State.draw_stack (s : State) (x y : Nat) (bs : List Byte) : (s.draw x y bs).stack = s.stack := rfl
@[simp] theorem State.draw_dt (s : State) (x y : Nat) (bs : List Byte) : (s.draw x y bs).dt = s.dt := rfl
@[simp] theorem State.draw_st (s : State) (x y : Nat) (bs : List Byte) : (s.draw x y bs).st = s.st := rfl
@[simp] theorem State.draw_halted (s : State) (x y : Nat) (bs : List Byte) : (s.draw x y bs).halted = s.halted := rfl
@[simp] theorem State.draw_fault (s : State) (x y : Nat) (bs : List Byte) : (s.draw x y bs).fault = s.fault := rfl
@[simp] theorem State.draw_uq (s : State) (x y : Nat) (bs : List Byte) : (s.draw x y bs).uq = s.uq := rfl
@[simp] theorem State.draw_exitFlag (s : State) (x y : Nat) (bs : List Byte) : (s.draw x y bs).exitFlag = s.exitFlag := rfl
@[simp] theorem State.draw_raw (s : State) (x y : Nat) (bs : List Byte) : (s.draw x y bs).raw = s.raw := rfl
@[simp] theorem State.draw_updateTimers (s : State) (x y : Nat) (bs : List Byte) : (s.draw x y bs).updateTimers = s.updateTimers := rfl
@[simp] theorem State.draw_host (s : State) (x y : Nat) (bs : List Byte) : (s.draw x y bs).host = s.host := rfl
@[simp] theorem State.draw_loadOpen (s : State) (x y : Nat) (bs : List Byte) : (s.draw x y bs).loadOpen = s.loadOpen := rfl
@[simp] theorem State.draw_draws (s : State) (x y : Nat) (bs : List Byte) : (s.draw x y bs).draws = s.draws := rfl
@[simp] theorem State.draw_renderReqs (s : State) (x y : Nat) (bs : List Byte) : (s.draw x y bs).renderReqs = s.renderReqs := rfl
@[simp] theorem State.draw_read (s : State) (x y : Nat) (bs : List Byte) (a : Nat) : (s.draw x y bs).read a = s.read a := rfl
@[simp] theorem State.draw_slot (s : State) (x y : Nat) (bs : List Byte) (j : Nibble) : (s.draw x y bs).slot j = s.slot j := by simp [State.slot]

/-! ## Input -/

/-- The unbounded queue is never full. -/
@[simp] theorem queueIsFull_none (uq : List Nibble) : queueIsFull none uq = false := rfl

/-- With the unbounded queue draining never stops on a full queue. -/
theorem drainRaw_unbounded (e : Byte) (raw : List RawEvent) (uq : List Nibble) (ef : Bool) :
    ∃ c, drainRaw none e raw uq ef = some c := by
  induction raw generalizing uq ef with
  | nil => exact ⟨_, rfl⟩
  | cons ev raw ih =>
    cases ev with
    | exit => exact ih uq true
    | other => exact ih uq ef
    | key k =>
      by_cases h : keyMatches e k = true
      · exact ⟨_, by rw [drainRaw, if_pos h]⟩
      · obtain ⟨c, hc⟩ := ih (uq ++ [k]) ef
        exact ⟨c, by rw [drainRaw, if_neg h]; simpa [queueIsFull] using hc⟩

/-- A key check on an unbounded queue has a result. -/
theorem checkIfPressed_unbounded (e : Byte) (s : State) : ∃ c, checkIfPressed none e s = some c := by
  unfold checkIfPressed
  split
  · exact ⟨_, rfl⟩
  · exact drainRaw_unbounded e s.raw s.uq s.exitFlag

/-- What SKP and SKNP can do: they answer the state the key check leaves, with the pc skipped or not (R235, R236), or are
refused because a finite queue is full (U8). -/
theorem skipOnKey_cases (wanted : Bool) (x : Reg) (s : State) :
    (∃ c, checkIfPressed s.params.uqCap (s.reg x) s = some c ∧
      skipOnKey wanted x s = .next ((s.setInput c.uq c.raw c.exitFlag).skipIf (c.hit == wanted))) ∨
    (checkIfPressed s.params.uqCap (s.reg x) s = none ∧ s.params.uqCap ≠ none ∧
      skipOnKey wanted x s = .refused .queueFull) := by
  cases hc : checkIfPressed s.params.uqCap (s.reg x) s with
  | some c => exact .inl ⟨c, rfl, by simp only [skipOnKey, hc]⟩
  | none =>
    refine .inr ⟨rfl, ?_, by simp only [skipOnKey, hc]⟩
    intro hn
    obtain ⟨c, hs⟩ := checkIfPressed_unbounded (s.reg x) s
    rw [hn, hs] at hc
    cases hc

/-- The same, for a known next state. -/
theorem skipOnKey_next {wanted : Bool} {x : Reg} {s t : State} (h : skipOnKey wanted x s = .next t) :
    ∃ c, checkIfPressed s.params.uqCap (s.reg x) s = some c ∧
      t = (s.setInput c.uq c.raw c.exitFlag).skipIf (c.hit == wanted) := by
  rcases skipOnKey_cases wanted x s with ⟨c, hc, hn⟩ | ⟨-, -, hn⟩
  · rw [hn] at h
    cases h
    exact ⟨c, hc, rfl⟩
  · rw [hn] at h
    cases h

/-! ## Timers -/

theorem countDown_toNat (b : Byte) : (countDown b).toNat = b.toNat - 1 := by
  by_cases h : b = 0
  · subst h; rfl
  · have hb : b.toNat ≠ 0 := fun h0 => h (BitVec.eq_of_toNat_eq (by simpa using h0))
    simp only [countDown, if_neg h]
    rw [BitVec.toNat_sub_of_le (by simp [BitVec.le_def]; omega)]
    rfl

/-- Step 5 of a tick touches the timers only (R126). -/
theorem State.updateTimerRegs_eq (s : State) :
    s.updateTimerRegs =
      { s with
        dt := if s.updateTimers then countDown s.dt else s.dt
        st := if s.updateTimers then countDown s.st else s.st } := by
  unfold State.updateTimerRegs
  by_cases h : s.updateTimers = true
  · simp only [if_pos h]; rfl
  · simp only [if_neg h]

end Sys2Proof.Machine
end

