-- ==== Sys2Proof/Laws/PerInstr.lean ====
section
/-!
SUPPORT. The per-instruction family `HasRow`: the encoder's word of every instruction matches a row of R96 that reads the
same instruction back from it.
-/

namespace Sys2Proof.Laws

/-- Some row of the opcode table matches the word of `i` and builds `i` from it (R92, R96). -/
def HasRow.Statement (i : Instr) : Prop :=
  ∃ r ∈ opcodeRows, rowMatches (encode i) r = true ∧ r.build (encode i) = i

/-- The row at place `k` of the table serves. -/
theorem HasRow.of_row {i : Instr} (k : Fin 35) (h : rowMatches (encode i) (opcodeRows[k.val]'k.isLt) = true)
    (hb : (opcodeRows[k.val]'k.isLt).build (encode i) = i) : HasRow.Statement i :=
  ⟨_, List.getElem_mem k.isLt, h, hb⟩

theorem HasRow.cls : HasRow.Statement .cls := HasRow.of_row 0 (by decide) rfl
theorem HasRow.ret : HasRow.Statement .ret := HasRow.of_row 1 (by decide) rfl
theorem HasRow.sys (aaa : Imm12) : HasRow.Statement (.sys aaa) :=
  HasRow.of_row 2 (rowMatches_F000 (op := 0x0) _ (by simp [encode])) (congrArg Instr.sys (aaaField_encodeA _ aaa))
theorem HasRow.jp (aaa : Imm12) : HasRow.Statement (.jp aaa) :=
  HasRow.of_row 3 (rowMatches_F000 (op := 0x1) _ (by simp [encode])) (congrArg Instr.jp (aaaField_encodeA _ aaa))
theorem HasRow.call (aaa : Imm12) : HasRow.Statement (.call aaa) :=
  HasRow.of_row 4 (rowMatches_F000 (op := 0x2) _ (by simp [encode])) (congrArg Instr.call (aaaField_encodeA _ aaa))
theorem HasRow.seImm (x : Reg) (kk : Byte) : HasRow.Statement (.seImm x kk) :=
  HasRow.of_row 5 (rowMatches_F000 (op := 0x3) _ (by simp [encode])) (congrArg₂ Instr.seImm (xField_encodeK _ x kk) (kkField_encodeK _ x kk))
theorem HasRow.sneImm (x : Reg) (kk : Byte) : HasRow.Statement (.sneImm x kk) :=
  HasRow.of_row 6 (rowMatches_F000 (op := 0x4) _ (by simp [encode])) (congrArg₂ Instr.sneImm (xField_encodeK _ x kk) (kkField_encodeK _ x kk))
theorem HasRow.seReg (x y : Reg) : HasRow.Statement (.seReg x y) :=
  HasRow.of_row 7 (rowMatches_F00F (op := 0x5) (n := 0x0) _ (by simp [encode]) (by simp [encode]))
    (congrArg₂ Instr.seReg (xField_encodeR _ x y _) (yField_encodeR _ x y _))
theorem HasRow.ldImm (x : Reg) (kk : Byte) : HasRow.Statement (.ldImm x kk) :=
  HasRow.of_row 8 (rowMatches_F000 (op := 0x6) _ (by simp [encode])) (congrArg₂ Instr.ldImm (xField_encodeK _ x kk) (kkField_encodeK _ x kk))
theorem HasRow.addImm (x : Reg) (kk : Byte) : HasRow.Statement (.addImm x kk) :=
  HasRow.of_row 9 (rowMatches_F000 (op := 0x7) _ (by simp [encode])) (congrArg₂ Instr.addImm (xField_encodeK _ x kk) (kkField_encodeK _ x kk))
theorem HasRow.ldReg (x y : Reg) : HasRow.Statement (.ldReg x y) :=
  HasRow.of_row 10 (rowMatches_F00F (op := 0x8) (n := 0x0) _ (by simp [encode]) (by simp [encode]))
    (congrArg₂ Instr.ldReg (xField_encodeR _ x y _) (yField_encodeR _ x y _))
theorem HasRow.orReg (x y : Reg) : HasRow.Statement (.orReg x y) :=
  HasRow.of_row 11 (rowMatches_F00F (op := 0x8) (n := 0x1) _ (by simp [encode]) (by simp [encode]))
    (congrArg₂ Instr.orReg (xField_encodeR _ x y _) (yField_encodeR _ x y _))
theorem HasRow.andReg (x y : Reg) : HasRow.Statement (.andReg x y) :=
  HasRow.of_row 12 (rowMatches_F00F (op := 0x8) (n := 0x2) _ (by simp [encode]) (by simp [encode]))
    (congrArg₂ Instr.andReg (xField_encodeR _ x y _) (yField_encodeR _ x y _))
theorem HasRow.xorReg (x y : Reg) : HasRow.Statement (.xorReg x y) :=
  HasRow.of_row 13 (rowMatches_F00F (op := 0x8) (n := 0x3) _ (by simp [encode]) (by simp [encode]))
    (congrArg₂ Instr.xorReg (xField_encodeR _ x y _) (yField_encodeR _ x y _))
theorem HasRow.addReg (x y : Reg) : HasRow.Statement (.addReg x y) :=
  HasRow.of_row 14 (rowMatches_F00F (op := 0x8) (n := 0x4) _ (by simp [encode]) (by simp [encode]))
    (congrArg₂ Instr.addReg (xField_encodeR _ x y _) (yField_encodeR _ x y _))
theorem HasRow.subReg (x y : Reg) : HasRow.Statement (.subReg x y) :=
  HasRow.of_row 15 (rowMatches_F00F (op := 0x8) (n := 0x5) _ (by simp [encode]) (by simp [encode]))
    (congrArg₂ Instr.subReg (xField_encodeR _ x y _) (yField_encodeR _ x y _))
theorem HasRow.shr (x y : Reg) : HasRow.Statement (.shr x y) :=
  HasRow.of_row 16 (rowMatches_F00F (op := 0x8) (n := 0x6) _ (by simp [encode]) (by simp [encode]))
    (congrArg₂ Instr.shr (xField_encodeR _ x y _) (yField_encodeR _ x y _))
theorem HasRow.subn (x y : Reg) : HasRow.Statement (.subn x y) :=
  HasRow.of_row 17 (rowMatches_F00F (op := 0x8) (n := 0x7) _ (by simp [encode]) (by simp [encode]))
    (congrArg₂ Instr.subn (xField_encodeR _ x y _) (yField_encodeR _ x y _))
theorem HasRow.shl (x y : Reg) : HasRow.Statement (.shl x y) :=
  HasRow.of_row 18 (rowMatches_F00F (op := 0x8) (n := 0xe) _ (by simp [encode]) (by simp [encode]))
    (congrArg₂ Instr.shl (xField_encodeR _ x y _) (yField_encodeR _ x y _))
theorem HasRow.sneReg (x y : Reg) : HasRow.Statement (.sneReg x y) :=
  HasRow.of_row 19 (rowMatches_F00F (op := 0x9) (n := 0x0) _ (by simp [encode]) (by simp [encode]))
    (congrArg₂ Instr.sneReg (xField_encodeR _ x y _) (yField_encodeR _ x y _))
theorem HasRow.ldI (aaa : Imm12) : HasRow.Statement (.ldI aaa) :=
  HasRow.of_row 20 (rowMatches_F000 (op := 0xa) _ (by simp [encode])) (congrArg Instr.ldI (aaaField_encodeA _ aaa))
theorem HasRow.jpV0 (aaa : Imm12) : HasRow.Statement (.jpV0 aaa) :=
  HasRow.of_row 21 (rowMatches_F000 (op := 0xb) _ (by simp [encode])) (congrArg Instr.jpV0 (aaaField_encodeA _ aaa))
theorem HasRow.rnd (x : Reg) (kk : Byte) : HasRow.Statement (.rnd x kk) :=
  HasRow.of_row 22 (rowMatches_F000 (op := 0xc) _ (by simp [encode])) (congrArg₂ Instr.rnd (xField_encodeK _ x kk) (kkField_encodeK _ x kk))
theorem HasRow.drw (x y : Reg) (n : Nibble) : HasRow.Statement (.drw x y n) :=
  HasRow.of_row 23 (rowMatches_F000 (op := 0xD) _ (by simp [encode]))
    (by
      change Instr.drw (xField (encodeR 0xD x y n)) (yField (encodeR 0xD x y n)) (nField (encodeR 0xD x y n)) = _
      rw [xField_encodeR, yField_encodeR, nField_encodeR])
theorem HasRow.skp (x : Reg) : HasRow.Statement (.skp x) :=
  HasRow.of_row 24 (rowMatches_F0FF (op := 0xe) (y := 0x9) (n := 0xe) _ (by simp [encode]) (by simp [encode]) (by simp [encode]))
    (congrArg Instr.skp (xField_encodeK _ x _))
theorem HasRow.sknp (x : Reg) : HasRow.Statement (.sknp x) :=
  HasRow.of_row 25 (rowMatches_F0FF (op := 0xe) (y := 0xa) (n := 0x1) _ (by simp [encode]) (by simp [encode]) (by simp [encode]))
    (congrArg Instr.sknp (xField_encodeK _ x _))
theorem HasRow.ldVxDt (x : Reg) : HasRow.Statement (.ldVxDt x) :=
  HasRow.of_row 26 (rowMatches_F0FF (op := 0xf) (y := 0x0) (n := 0x7) _ (by simp [encode]) (by simp [encode]) (by simp [encode]))
    (congrArg Instr.ldVxDt (xField_encodeK _ x _))
theorem HasRow.ldVxK (x : Reg) : HasRow.Statement (.ldVxK x) :=
  HasRow.of_row 27 (rowMatches_F0FF (op := 0xf) (y := 0x0) (n := 0xa) _ (by simp [encode]) (by simp [encode]) (by simp [encode]))
    (congrArg Instr.ldVxK (xField_encodeK _ x _))
theorem HasRow.ldDtVx (x : Reg) : HasRow.Statement (.ldDtVx x) :=
  HasRow.of_row 28 (rowMatches_F0FF (op := 0xf) (y := 0x1) (n := 0x5) _ (by simp [encode]) (by simp [encode]) (by simp [encode]))
    (congrArg Instr.ldDtVx (xField_encodeK _ x _))
theorem HasRow.ldStVx (x : Reg) : HasRow.Statement (.ldStVx x) :=
  HasRow.of_row 29 (rowMatches_F0FF (op := 0xf) (y := 0x1) (n := 0x8) _ (by simp [encode]) (by simp [encode]) (by simp [encode]))
    (congrArg Instr.ldStVx (xField_encodeK _ x _))
theorem HasRow.addI (x : Reg) : HasRow.Statement (.addI x) :=
  HasRow.of_row 30 (rowMatches_F0FF (op := 0xf) (y := 0x1) (n := 0xe) _ (by simp [encode]) (by simp [encode]) (by simp [encode]))
    (congrArg Instr.addI (xField_encodeK _ x _))
theorem HasRow.ldF (x : Reg) : HasRow.Statement (.ldF x) :=
  HasRow.of_row 31 (rowMatches_F0FF (op := 0xf) (y := 0x2) (n := 0x9) _ (by simp [encode]) (by simp [encode]) (by simp [encode]))
    (congrArg Instr.ldF (xField_encodeK _ x _))
theorem HasRow.ldB (x : Reg) : HasRow.Statement (.ldB x) :=
  HasRow.of_row 32 (rowMatches_F0FF (op := 0xf) (y := 0x3) (n := 0x3) _ (by simp [encode]) (by simp [encode]) (by simp [encode]))
    (congrArg Instr.ldB (xField_encodeK _ x _))
theorem HasRow.ldMemVx (x : Reg) : HasRow.Statement (.ldMemVx x) :=
  HasRow.of_row 33 (rowMatches_F0FF (op := 0xf) (y := 0x5) (n := 0x5) _ (by simp [encode]) (by simp [encode]) (by simp [encode]))
    (congrArg Instr.ldMemVx (xField_encodeK _ x _))
theorem HasRow.ldVxMem (x : Reg) : HasRow.Statement (.ldVxMem x) :=
  HasRow.of_row 34 (rowMatches_F0FF (op := 0xf) (y := 0x6) (n := 0x5) _ (by simp [encode]) (by simp [encode]) (by simp [encode]))
    (congrArg Instr.ldVxMem (xField_encodeK _ x _))

end Sys2Proof.Laws
end

