-- ==== Sys2Proof/Laws/Tick.lean ====
section
/-!
SUPPORT. What one instruction, one tick, the host's moves and one step can do, once each.
-/

namespace Sys2Proof.Machine

/-! ## One instruction -/

/-- What an instruction can answer: a next state (a fault of the spec is one too, R262), or, for SKP and SKNP with a finite
queue, the refusal of an append to a full one (U8). -/
theorem exec_outcome (i : Instr) (s : State) :
    (∃ t, exec i s = .next t) ∨
    (∃ x, (i = .skp x ∨ i = .sknp x) ∧ checkIfPressed s.params.uqCap (s.reg x) s = none ∧ s.params.uqCap ≠ none ∧
      exec i s = .refused .queueFull) := by
  cases i
  case skp x =>
    rcases skipOnKey_cases true x s with ⟨c, -, h⟩ | ⟨hc, hn, h⟩
    · exact .inl ⟨_, h⟩
    · exact .inr ⟨x, .inl rfl, hc, hn, h⟩
  case sknp x =>
    rcases skipOnKey_cases false x s with ⟨c, -, h⟩ | ⟨hc, hn, h⟩
    · exact .inl ⟨_, h⟩
    · exact .inr ⟨x, .inr rfl, hc, hn, h⟩
  all_goals exact .inl ⟨_, rfl⟩

/-! ## One tick -/

/-- Finishing a tick, field by field: the timers and the render pulse, and only if nothing was raised (R125). -/
theorem State.finishTick_eq (s : State) :
    s.finishTick =
      if s.halted then s
      else { s with
        dt := if s.updateTimers then countDown s.dt else s.dt
        st := if s.updateTimers then countDown s.st else s.st
        renderReqs := s.renderReqs + 1 } := by
  unfold State.finishTick
  split
  · rfl
  · rw [State.updateTimerRegs_eq]; rfl

@[simp] theorem State.finishTick_params (s : State) : s.finishTick.params = s.params := by
  rw [State.finishTick_eq]; split <;> rfl
@[simp] theorem State.finishTick_mem (s : State) : s.finishTick.mem = s.mem := by
  rw [State.finishTick_eq]; split <;> rfl
@[simp] theorem State.finishTick_v (s : State) : s.finishTick.v = s.v := by
  rw [State.finishTick_eq]; split <;> rfl
@[simp] theorem State.finishTick_i (s : State) : s.finishTick.i = s.i := by
  rw [State.finishTick_eq]; split <;> rfl
@[simp] theorem State.finishTick_pc (s : State) : s.finishTick.pc = s.pc := by
  rw [State.finishTick_eq]; split <;> rfl
@[simp] theorem State.finishTick_sp (s : State) : s.finishTick.sp = s.sp := by
  rw [State.finishTick_eq]; split <;> rfl
@[simp] theorem State.finishTick_stack (s : State) : s.finishTick.stack = s.stack := by
  rw [State.finishTick_eq]; split <;> rfl
@[simp] theorem State.finishTick_halted (s : State) : s.finishTick.halted = s.halted := by
  rw [State.finishTick_eq]; split <;> rfl
@[simp] theorem State.finishTick_fault (s : State) : s.finishTick.fault = s.fault := by
  rw [State.finishTick_eq]; split <;> rfl
@[simp] theorem State.finishTick_fb (s : State) : s.finishTick.fb = s.fb := by
  rw [State.finishTick_eq]; split <;> rfl
@[simp] theorem State.finishTick_uq (s : State) : s.finishTick.uq = s.uq := by
  rw [State.finishTick_eq]; split <;> rfl
@[simp] theorem State.finishTick_exitFlag (s : State) : s.finishTick.exitFlag = s.exitFlag := by
  rw [State.finishTick_eq]; split <;> rfl
@[simp] theorem State.finishTick_raw (s : State) : s.finishTick.raw = s.raw := by
  rw [State.finishTick_eq]; split <;> rfl
@[simp] theorem State.finishTick_updateTimers (s : State) : s.finishTick.updateTimers = s.updateTimers := by
  rw [State.finishTick_eq]; split <;> rfl
@[simp] theorem State.finishTick_host (s : State) : s.finishTick.host = s.host := by
  rw [State.finishTick_eq]; split <;> rfl
@[simp] theorem State.finishTick_loadOpen (s : State) : s.finishTick.loadOpen = s.loadOpen := by
  rw [State.finishTick_eq]; split <;> rfl
@[simp] theorem State.finishTick_draws (s : State) : s.finishTick.draws = s.draws := by
  rw [State.finishTick_eq]; split <;> rfl
@[simp] theorem State.finishTick_reg (s : State) (r : Reg) : s.finishTick.reg r = s.reg r := by simp [State.reg]
@[simp] theorem State.finishTick_read (s : State) (a : Nat) : s.finishTick.read a = s.read a := by simp [State.read]
@[simp] theorem State.finishTick_slot (s : State) (j : Nibble) : s.finishTick.slot j = s.slot j := by simp [State.slot]

/-- What a tick can do (R120): nothing, a fetch fault, an illegal word, or one instruction from the advanced pc. -/
theorem tick_cases {s t : State} (h : tick s = .next t) :
    (s.halted = true ∧ t = s) ∨
    (s.halted = false ∧ 0xFFE < s.pc.toNat ∧ t = s.closeLoad.raise (.addressOutOfRange s.pc.toNat)) ∨
    (s.halted = false ∧ s.pc.toNat ≤ 0xFFE ∧
      ((∃ e, decodeWord s.fetchWord = .error e ∧
          t = s.closeLoad.advance.raise (.illegalInstruction s.fetchWord s.closeLoad.advance.pc0)) ∨
       (∃ i u, decodeWord s.fetchWord = .ok i ∧ exec i s.closeLoad.advance = .next u ∧ t = u.finishTick))) := by
  unfold tick at h
  split at h
  · rename_i hh
    cases h
    exact .inl ⟨hh, rfl⟩
  · rename_i hh
    have hh : s.halted = false := by simpa using hh
    split at h
    · rename_i hp
      cases h
      exact .inr (.inl ⟨hh, hp, rfl⟩)
    · rename_i hp
      refine .inr (.inr ⟨hh, by omega, ?_⟩)
      unfold runWord at h
      split at h
      · rename_i e he
        cases h
        exact .inl ⟨e, he, rfl⟩
      · rename_i i hi
        split at h
        · rename_i u hu
          cases h
          exact .inr ⟨i, u, hi, hu, rfl⟩
        · cases h
        · cases h

/-- What a tick can answer: a next state, or the refusal of an append to a full finite queue, by a running core that fetched
an SKP or SKNP (U8). -/
theorem tick_outcome (s : State) :
    (∃ t, tick s = .next t) ∨
    (∃ x, s.halted = false ∧ s.pc.toNat ≤ 0xFFE ∧
      (decodeWord s.fetchWord = .ok (.skp x) ∨ decodeWord s.fetchWord = .ok (.sknp x)) ∧
      checkIfPressed s.params.uqCap (s.reg x) s = none ∧ s.params.uqCap ≠ none ∧ tick s = .refused .queueFull) := by
  unfold tick
  by_cases hh : s.halted = true
  · exact .inl ⟨_, if_pos hh⟩
  · rw [if_neg hh]
    by_cases hp : s.pc.toNat > 0xFFE
    · exact .inl ⟨_, if_pos hp⟩
    · rw [if_neg hp]
      unfold runWord
      split
      · exact .inl ⟨_, rfl⟩
      · rename_i i hi
        rcases exec_outcome i s.closeLoad.advance with ⟨u, hu⟩ | ⟨x, hx, hc, hn, hu⟩
        · exact .inl ⟨_, by rw [hu]⟩
        · refine .inr ⟨x, by simpa using hh, by omega, ?_, hc, hn, by rw [hu]⟩
          rcases hx with rfl | rfl
          · exact .inl hi
          · exact .inr hi

/-! ## The host's moves and one step -/

/-- What a load that answers has done (R293). -/
theorem State.load_next {image : List Byte} {s t : State} (h : State.load image s = .next t) :
    s.loadOpen = true ∧ image.length ≤ Config.progMax ∧
      t = (s.storeBytes Config.progBase image).closeLoad := by
  unfold State.load at h
  split at h
  · cases h
  · split at h
    · cases h
    · cases h
      exact ⟨by simp_all, by omega, rfl⟩

/-- The induction over the host's moves: a relation that every single move respects holds between the states before and
after the host's turn. -/
theorem hostMoves_induction {P : State → State → Prop}
    (trans : ∀ s t u, P s t → P t u → P s u)
    (reset : ∀ s, P s s.hostReset)
    (load : ∀ image s t, State.load image s = .next t → P s t)
    (push : ∀ e s, P s (s.pushRaw e))
    (timers : ∀ b s, P s (s.setUpdateTimers b))
    (rest : ∀ ms s, P s (s.setHost ms))
    {ms : List HostMove} {s t : State} (h : hostMoves ms s = .next t) : P s t := by
  induction ms generalizing s with
  | nil => cases h; exact rest [] s
  | cons m ms ih =>
    cases m with
    | reset => exact trans _ _ _ (reset s) (ih h)
    | push e => exact trans _ _ _ (push e s) (ih h)
    | tick b => cases h; exact trans _ _ _ (timers b s) (rest ms _)
    | load image =>
      rw [hostMoves] at h
      split at h
      · rename_i u hu
        exact trans _ _ _ (load image s u hu) (ih h)
      · cases h
      · cases h

/-- Where the host's moves are refused: at a load before the next tick command that may not be made (R293). -/
theorem hostMoves_refused {ms : List HostMove} {s : State} {r : Refusal} (h : hostMoves ms s = .refused r) :
    ∃ (pre post : List HostMove) (image : List Byte) (u : State),
      ms = pre ++ .load image :: post ∧ (∀ b, HostMove.tick b ∉ pre) ∧ hostMoves pre s = .next u ∧
      ((r = .loadNotOpen ∧ u.loadOpen = false) ∨
       (r = .imageTooLong ∧ u.loadOpen = true ∧ Config.progMax < image.length)) := by
  induction ms generalizing s with
  | nil => cases h
  | cons m ms ih =>
    cases m with
    | reset =>
      obtain ⟨pre, post, image, u, rfl, ht, hu, hr⟩ := ih (s := s.hostReset) h
      exact ⟨.reset :: pre, post, image, u, rfl, by simpa using ht, hu, hr⟩
    | push e =>
      obtain ⟨pre, post, image, u, rfl, ht, hu, hr⟩ := ih (s := s.pushRaw e) h
      exact ⟨.push e :: pre, post, image, u, rfl, by simpa using ht, hu, hr⟩
    | tick b => cases h
    | load image =>
      cases hl : State.load image s with
      | next t =>
        simp only [hostMoves, hl] at h
        obtain ⟨pre, post, image', u, rfl, ht, hu, hr⟩ := ih h
        exact ⟨.load image :: pre, post, image', u, rfl, by simpa using ht, by simpa only [hostMoves, hl] using hu, hr⟩
      | fault f => simp only [hostMoves, hl] at h; cases h
      | refused q =>
        simp only [hostMoves, hl] at h
        cases h
        refine ⟨[], ms, image, s.setHost [], rfl, fun _ => List.not_mem_nil, rfl, ?_⟩
        unfold State.load at hl
        split at hl
        · cases hl
          exact .inl ⟨rfl, by simp_all⟩
        · split at hl
          · cases hl
            exact .inr ⟨rfl, by simp_all, by assumption⟩
          · cases hl

/-- What a step can do: the host's turn, then a tick. -/
theorem step_cases {s t : State} (h : step s = .next t) : ∃ u, s.hostTurn = .next u ∧ tick u = .next t := by
  unfold step at h
  split at h
  · exact ⟨_, by assumption, h⟩
  · cases h
  · cases h

/-- With no announced move the host's turn changes nothing. -/
theorem State.hostTurn_idle {s : State} (h : s.host = []) : s.hostTurn = .next s := by
  obtain ⟨⟩ := s
  simp_all [State.hostTurn, hostMoves, State.setHost]

end Sys2Proof.Machine
end

