-- ==== Sys2Proof/Tests/Slice0.lean ====
section
/-!
SUPPORT. Tests: the well-formedness smoke test, a word of every row decoded, one or two single steps per instruction, and a
witness for every obligation that has hypotheses. Expected values are from the spec: "V-…", "S…", "P…" and "PF…" name entries of
`95_test_vectors.md`; a test without such a name says which rule its value was worked out from by hand.
-/

namespace Sys2Proof.Tests

open Sys2Proof.Machine Sys2Proof.Safety

-- One thread for this section: many small kernel evaluations, each on a thread of its own, exceed the memory limit.
set_option Elab.async false

/-- The reset state with one instruction word at 0x200 (the start state of the spec's vectors; `update_timers` is 1). -/
def loaded (w : Nat) : State := State.reset.withFetchWord 16 w

/-- The same with `update_timers = 0`. -/
def untimed (w : Nat) : State := (loaded w).setUpdateTimers false

/-- What an observer sees of the next state, if there is one. -/
def after {α : Type} (o : Host.Outcome State Fault Refusal) (see : State → α) : Option α :=
  match o with
  | .next t => some (see t)
  | .fault _ => none
  | .refused _ => none

/-- Why a step was refused, if it was. -/
def refusal (o : Host.Outcome State Fault Refusal) : Option Refusal :=
  match o with
  | .next _ => none
  | .fault _ => none
  | .refused r => some r

/-- Two steps in a row. -/
def step2 (s : State) : Host.Outcome State Fault Refusal :=
  match step s with
  | .next t => step t
  | .fault f => .fault f
  | .refused r => .refused r

/-- Pc, halted and cause. -/
def control (t : State) : Word × Bool × Option Fault := (t.pc, t.halted, t.fault)

/-- Queue, raw stream, exit flag, pc. -/
def input (t : State) : List Nibble × List RawEvent × Bool × Word := (t.uq, t.raw, t.exitFlag, t.pc)

/-- The pixels that are on, row-major. -/
def lit (t : State) : List (Nat × Nat) := (t.render.filter fun p => p.2.2).map fun p => (p.1, p.2.1)

/-! ## Well-formedness: the one check refuses both terms it is there for (R94, R98) -/

theorem test_wellFormed_refuses_cls_word : wellFormed (.sys 0x0E0) = false := by decide
theorem test_wellFormed_refuses_ret_word : wellFormed (.sys 0x0EE) = false := by decide
theorem test_wellFormed_accepts :
    wellFormed (.sys 0x0E1) = true ∧ wellFormed .cls = true ∧ wellFormed (.drw 15 15 15) = true := by decide

/-! ## Decoding: one word per row, written out nibble by nibble from R91 to R96 -/

theorem test_decode_control :
    decodeTableWord 16 0x00E0 = some .cls ∧ decodeTableWord 16 0x00EE = some .ret ∧
    decodeTableWord 16 0x0234 = some (.sys 0x234) ∧ decodeTableWord 16 0x1ABC = some (.jp 0xABC) ∧
    decodeTableWord 16 0x2DEF = some (.call 0xDEF) := by decide +kernel

theorem test_decode_immediate :
    decodeTableWord 16 0x3A7F = some (.seImm 0xA 0x7F) ∧ decodeTableWord 16 0x4B81 = some (.sneImm 0xB 0x81) ∧
    decodeTableWord 16 0x51E0 = some (.seReg 0x1 0xE) ∧ decodeTableWord 16 0x6C55 = some (.ldImm 0xC 0x55) ∧
    decodeTableWord 16 0x7DFE = some (.addImm 0xD 0xFE) := by decide +kernel

theorem test_decode_alu :
    decodeTableWord 16 0x8120 = some (.ldReg 1 2) ∧ decodeTableWord 16 0x8341 = some (.orReg 3 4) ∧
    decodeTableWord 16 0x8562 = some (.andReg 5 6) ∧ decodeTableWord 16 0x8783 = some (.xorReg 7 8) ∧
    decodeTableWord 16 0x9AB0 = some (.sneReg 0xA 0xB) := by decide +kernel

theorem test_decode_alu_flags :
    decodeTableWord 16 0x8294 = some (.addReg 2 9) ∧ decodeTableWord 16 0x8CD5 = some (.subReg 0xC 0xD) ∧
    decodeTableWord 16 0x8EF6 = some (.shr 0xE 0xF) ∧ decodeTableWord 16 0x8137 = some (.subn 1 3) ∧
    decodeTableWord 16 0x824E = some (.shl 2 4) := by decide +kernel

theorem test_decode_middle :
    decodeTableWord 16 0xA123 = some (.ldI 0x123) ∧ decodeTableWord 16 0xB456 = some (.jpV0 0x456) ∧
    decodeTableWord 16 0xC7F0 = some (.rnd 7 0xF0) ∧ decodeTableWord 16 0xD9A5 = some (.drw 9 0xA 5) ∧
    decodeTableWord 16 0xEB9E = some (.skp 0xB) ∧ decodeTableWord 16 0xECA1 = some (.sknp 0xC) := by decide +kernel

theorem test_decode_misc :
    decodeTableWord 16 0xF107 = some (.ldVxDt 1) ∧ decodeTableWord 16 0xF20A = some (.ldVxK 2) ∧
    decodeTableWord 16 0xF315 = some (.ldDtVx 3) ∧ decodeTableWord 16 0xF418 = some (.ldStVx 4) ∧
    decodeTableWord 16 0xF51E = some (.addI 5) ∧ decodeTableWord 16 0xF629 = some (.ldF 6) ∧
    decodeTableWord 16 0xF733 = some (.ldB 7) ∧ decodeTableWord 16 0xF855 = some (.ldMemVx 8) ∧
    decodeTableWord 16 0xF965 = some (.ldVxMem 9) := by decide +kernel

/-- V-TK-13: illegal words, each by the name of its line of R97. -/
theorem test_decode_illegal :
    decodeWord 0x5001 = .error .illegalSeReg ∧ decodeWord 0x512F = .error .illegalSeReg ∧
    decodeWord 0x900F = .error .illegalSneReg ∧ decodeWord 0x9121 = .error .illegalSneReg ∧
    decodeWord 0x8128 = .error .illegalAlu ∧ decodeWord 0x812D = .error .illegalAlu ∧
    decodeWord 0x812F = .error .illegalAlu ∧ decodeWord 0xE000 = .error .illegalKey ∧
    decodeWord 0xE19F = .error .illegalKey ∧ decodeWord 0xE1A0 = .error .illegalKey ∧
    decodeWord 0xF100 = .error .illegalMisc ∧ decodeWord 0xF00B = .error .illegalMisc ∧
    decodeWord 0xF156 = .error .illegalMisc ∧ decodeWord 0xF1FF = .error .illegalMisc := by
  refine ⟨?_, ?_, ?_, ?_, ?_, ?_, ?_, ?_, ?_, ?_, ?_, ?_, ?_, ?_⟩ <;> rfl

/-- One byte is no instruction (R90). -/
theorem test_decode_short : decodeBytes [0x00] = .error .tooShort := rfl

/-! ## The tick -/

/-- V-TK-4. -/
theorem test_tick_counts_down :
    after (step (((loaded 0x0000).setDt 5).setSt 1)) (fun t => (t.pc, t.dt, t.st, t.renderReqs)) =
      some (0x202, 4, 0, 1) := by decide +kernel

/-- V-TK-5. -/
theorem test_tick_without_timers :
    after (step (((untimed 0x0000).setDt 5).setSt 1)) (fun t => (t.pc, t.dt, t.st)) = some (0x202, 5, 1) := by
  decide +kernel

/-- V-TK-9: the pulse is not emitted. -/
theorem test_fetch_fault :
    after (step (State.reset.setPc 0xFFF)) (fun t => (control t, t.renderReqs)) =
      some ((0xFFF, true, some (.addressOutOfRange 0xFFF)), 0) := by decide +kernel

/-- PF2. -/
theorem test_illegal_word :
    after (step ((loaded 0x5121).setDt 9)) (fun t => (control t, t.dt, t.renderReqs)) =
      some ((0x202, true, some (.illegalInstruction 0x5121 0x200)), 9, 0) := by decide +kernel

/-- R261: the cause codes of the faults that PF2 and the tests of CALL, RET and the fetch raise. -/
theorem test_fault_codes :
    (Fault.illegalInstruction 0x5121 0x200).code = 1 ∧ (Fault.stackOverflow 0x200).code = 2 ∧
    (Fault.stackUnderflow 0x200).code = 3 ∧ (Fault.addressOutOfRange 0xFFF).code = 4 := by decide

/-- V-TK-10. -/
theorem test_halted_tick :
    after (step (((loaded 0x6A7F).setDt 9).raise (.stackUnderflow 0x200))) (fun t => (t.pc, t.reg 0xA, t.dt, t.renderReqs)) =
      some (0x200, 0, 9, 0) := by decide +kernel

/-- V-TK-11: a jump to an odd address, and the word fetched there. -/
theorem test_odd_pc :
    after (step2 (State.reset.storeBytes 0x200 [0x12, 0x03, 0x00, 0x6A, 0x55, 0x12, 0x05])) (fun t => (t.pc, t.reg 0xA)) =
      some (0x205, 0x55) := by decide +kernel

/-- P6's last two ticks: the word stored by Fx55 is the one fetched next. -/
theorem test_fetch_sees_the_store :
    after (step2 (((((loaded 0xF155).setI 0x202).setReg 0 0x12).setReg 1 0x08))) (fun t => t.pc) = some 0x208 := by
  decide +kernel

/-! ## The host's moves -/

/-- S12, V-RS-1, R292: load after reset, one tick. -/
theorem test_load_and_run :
    after (step (State.reset.setHost [.load [0x6A, 0x7F], .tick true, .push .exit]))
      (fun t => (t.reg 0xA, t.pc, t.loadOpen, t.host)) = some (0x7F, 0x202, false, [.push .exit]) := by decide +kernel

/-- U13: a load after a tick is refused. -/
theorem test_load_after_tick : refusal (step2 (State.reset.setHost [.tick false, .load [0x00]])) = some .loadNotOpen := by
  decide +kernel

/-- V-RS-4. -/
theorem test_load_too_long : refusal (step (State.reset.setHost [.load (List.replicate 3585 0)])) = some .imageTooLong := by
  decide +kernel

/-- R290, R296: reset of a halted core, the events still there (R40), then a tick. -/
theorem test_reset_of_a_halted_core :
    after (step (((loaded 0x00EE).raise (.stackUnderflow 0x200)).setHost [.push .other, .reset, .tick true]))
      (fun t => (control t, t.raw)) = some ((0x202, false, none), [.other]) := by decide +kernel

/-! ## Control transfer -/

/-- V-TK-3. -/
theorem test_sys : after (step (loaded 0x00FF)) control = some (0x202, false, none) := by decide +kernel
/-- V-CT-1. -/
theorem test_jp : after (step (loaded 0x1ABC)) control = some (0xABC, false, none) := by decide +kernel
/-- V-CT-10. -/
theorem test_call : after (step { loaded 0x2300 with sp := 14 }) (fun t => (t.slot 14, t.sp, t.pc)) =
    some (0x202, 15, 0x300) := by decide +kernel
/-- V-CT-9. -/
theorem test_call_overflow : after (step { loaded 0x2300 with sp := 15 }) (fun t => (control t, t.sp)) =
    some ((0x202, true, some (.stackOverflow 0x200)), 15) := by decide +kernel
/-- V-CT-7. -/
theorem test_ret :
    after (step { loaded 0x00EE with sp := 1, stack := State.reset.stack.set 0 0x206 })
      (fun t => (t.sp, t.pc, t.slot 0)) = some (0, 0x206, 0x206) := by decide +kernel
/-- V-CT-8. -/
theorem test_ret_underflow : after (step (loaded 0x00EE)) (fun t => (control t, t.sp)) =
    some ((0x202, true, some (.stackUnderflow 0x200)), 0) := by decide +kernel
/-- V-CT-4. -/
theorem test_jpV0 : after (step ((loaded 0xBFFF).setReg 0 0xFF)) control = some (0x10FE, false, none) := by decide +kernel
/-- V-CT-5. -/
theorem test_jpV0_ignores_vx : after (step ((loaded 0xB300).setReg 3 4)) (fun t => t.pc) = some 0x300 := by decide +kernel
/-- V-CT-13. -/
theorem test_seImm : after (step ((loaded 0x332A).setReg 3 0x2A)) (fun t => t.pc) = some 0x204 := by decide +kernel
/-- V-CT-14. -/
theorem test_seImm_not : after (step ((loaded 0x332A).setReg 3 0x2B)) (fun t => t.pc) = some 0x202 := by decide +kernel
/-- V-CT-13. -/
theorem test_sneImm : after (step ((loaded 0x432A).setReg 3 0x2A)) (fun t => t.pc) = some 0x202 := by decide +kernel
/-- V-CT-14. -/
theorem test_sneImm_skips : after (step ((loaded 0x432A).setReg 3 0x2B)) (fun t => t.pc) = some 0x204 := by decide +kernel
/-- V-CT-16. -/
theorem test_seReg : after (step (((loaded 0x5120).setReg 1 7).setReg 2 7)) (fun t => t.pc) = some 0x204 := by
  decide +kernel
/-- V-CT-17. -/
theorem test_seReg_not : after (step (((loaded 0x5120).setReg 1 7).setReg 2 8)) (fun t => t.pc) = some 0x202 := by
  decide +kernel
/-- V-CT-17. -/
theorem test_sneReg : after (step (((loaded 0x9120).setReg 1 7).setReg 2 8)) (fun t => t.pc) = some 0x204 := by
  decide +kernel
/-- V-CT-18. -/
theorem test_sneReg_same : after (step (loaded 0x9330)) (fun t => t.pc) = some 0x202 := by decide +kernel

/-! ## Loads and the ALU -/

/-- V-ALU-1. -/
theorem test_ldImm : after (step (loaded 0x6A7F)) (fun t => t.reg 0xA) = some 0x7F := by decide +kernel
/-- V-ALU-3. -/
theorem test_addImm : after (step ((loaded 0x7002).setReg 0 0xFF)) (fun t => (t.reg 0, t.reg vf)) = some (1, 0) := by
  decide +kernel
/-- V-ALU-5. -/
theorem test_ldReg : after (step ((loaded 0x8120).setReg 2 0x33)) (fun t => (t.reg 1, t.reg 2)) = some (0x33, 0x33) := by
  decide +kernel
/-- V-ALU-6. -/
theorem test_orReg :
    after (step ((((loaded 0x8121).setReg 1 0xF0).setReg 2 0x0F).setReg vf 1)) (fun t => (t.reg 1, t.reg vf)) =
      some (0xFF, 1) := by decide +kernel
/-- V-ALU-7. -/
theorem test_andReg :
    after (step ((((loaded 0x8122).setReg 1 0xF3).setReg 2 0x3F).setReg vf 1)) (fun t => (t.reg 1, t.reg vf)) =
      some (0x33, 1) := by decide +kernel
/-- V-ALU-8. -/
theorem test_xorReg :
    after (step ((((loaded 0x8123).setReg 1 0xFF).setReg 2 0x0F).setReg vf 1)) (fun t => (t.reg 1, t.reg vf)) =
      some (0xF0, 1) := by decide +kernel
/-- S2. -/
theorem test_addReg :
    after (step (((loaded 0x8294).setReg 2 0xFF).setReg 9 0xFF)) (fun t => (t.reg 2, t.reg 9, t.reg vf)) =
      some (0xFE, 0xFF, 1) := by decide +kernel
/-- V-ALU-22: y = F is read before VF is written. -/
theorem test_addReg_reads_vf_first :
    after (step (((loaded 0x81F4).setReg 1 0xFF).setReg vf 1)) (fun t => (t.reg 1, t.reg vf)) = some (0, 1) := by
  decide +kernel
/-- V-ALU-14. -/
theorem test_subReg : after (step (((loaded 0x8125).setReg 1 3).setReg 2 5)) (fun t => (t.reg 1, t.reg vf)) =
    some (0xFE, 0) := by decide +kernel
/-- V-ALU-23 (D5). -/
theorem test_subReg_into_vf : after (step (((loaded 0x8F15).setReg vf 5).setReg 1 7)) (fun t => t.reg vf) =
    some 0xFE := by decide +kernel
/-- V-ALU-19, third column. -/
theorem test_shr : after (step (((loaded 0x8126).setReg 1 0xFF).setReg 2 0x10)) (fun t => (t.reg 1, t.reg 2, t.reg vf)) =
    some (0x7F, 0x10, 1) := by decide +kernel
/-- V-ALU-25 (D5). -/
theorem test_shr_into_vf : after (step ((loaded 0x8F06).setReg vf 6)) (fun t => t.reg vf) = some 3 := by decide +kernel
/-- V-ALU-17. -/
theorem test_subn : after (step (((loaded 0x8127).setReg 1 0x10).setReg 2 1)) (fun t => (t.reg 1, t.reg 2, t.reg vf)) =
    some (0xF1, 1, 0) := by decide +kernel
/-- V-ALU-24 (D5). -/
theorem test_subn_into_vf : after (step (((loaded 0x8F17).setReg vf 5).setReg 1 7)) (fun t => t.reg vf) = some 2 := by
  decide +kernel
/-- V-ALU-19b, first column. -/
theorem test_shl : after (step ((loaded 0x810E).setReg 1 0x81)) (fun t => (t.reg 1, t.reg vf)) = some (2, 1) := by
  decide +kernel
/-- V-ALU-26 (D5). -/
theorem test_shl_into_vf : after (step ((loaded 0x8F0E).setReg vf 0x81)) (fun t => t.reg vf) = some 2 := by decide +kernel
/-- V-ALU-28: the mask 00 leaves 00 whatever byte is drawn; the byte itself is a free value. -/
theorem test_rnd : ∃ t, step ((loaded 0xC300).setReg 3 0xEE) = .next t ∧ t.reg 3 = 0 ∧ t.draws = 1 := by
  refine ⟨_, rfl, ?_, rfl⟩
  show Config.rnd 0 &&& 0#8 = 0
  exact BitVec.and_zero

/-! ## Index and memory -/

/-- V-MEM-1. -/
theorem test_ldI : after (step ((loaded 0xA300).setI 0xFFFF)) (fun t => t.i) = some 0x300 := by decide +kernel
/-- V-MEM-3. -/
theorem test_addI : after (step (((loaded 0xF11E).setI 0xFFF).setReg 1 1)) (fun t => (t.i, t.reg vf)) =
    some (0x1000, 0) := by decide +kernel
/-- V-MEM-4 (D20). -/
theorem test_addI_wraps : after (step (((loaded 0xF11E).setI 0xFFFF).setReg 1 2)) (fun t => t.i) = some 1 := by
  decide +kernel
/-- V-MEM-6. -/
theorem test_ldF : after (step ((loaded 0xF129).setReg 1 0xFF)) (fun t => t.i) = some 0x4B := by decide +kernel
/-- S3. -/
theorem test_ldF_glyph : after (step ((loaded 0xF129).setReg 1 0x0A)) (fun t => t.readBytes t.i.toNat 5) =
    some [0xF0, 0x90, 0xF0, 0x90, 0x90] := by decide +kernel
/-- V-MEM-8. -/
theorem test_ldB :
    after (step (((loaded 0xF133).setReg 1 0x7B).setI 0xFFD)) (fun t => (t.readBytes 0xFFC 4, t.i)) =
      some ([0, 1, 2, 3], 0xFFD) := by decide +kernel
/-- V-MEM-9. -/
theorem test_ldB_fault :
    after (step (((loaded 0xF133).setReg 1 7).setI 0xFFE)) (fun t => (control t, t.readBytes 0xFFE 2)) =
      some ((0x202, true, some (.addressOutOfRange 0x1000)), [0, 0]) := by decide +kernel
/-- V-MEM-10. -/
theorem test_ldMemVx :
    after (step (((((loaded 0xF255).setI 0x300).setReg 0 0x11).setReg 1 0x22).setReg 2 0x33))
      (fun t => (t.readBytes 0x300 4, t.i)) = some ([0x11, 0x22, 0x33, 0], 0x300) := by decide +kernel
/-- V-MEM-13, second word. -/
theorem test_ldMemVx_fault :
    after (step (((loaded 0xF155).setI 0xFFF).setReg 0 0x77)) (fun t => (control t, t.read 0xFFF)) =
      some ((0x202, true, some (.addressOutOfRange 0x1000)), 0) := by decide +kernel
/-- V-MEM-14. -/
theorem test_ldVxMem :
    after (step (((loaded 0xF465).setI 0x32).setReg 5 0x99))
      (fun t => ([t.reg 0, t.reg 1, t.reg 2, t.reg 3, t.reg 4, t.reg 5], t.i)) =
      some ([0xF0, 0x90, 0xF0, 0x90, 0x90, 0x99], 0x32) := by decide +kernel
/-- V-MEM-16. -/
theorem test_ldVxMem_fault :
    after (step (((loaded 0xF065).setI 0x1000).setReg 0 9)) (fun t => (control t, t.reg 0)) =
      some ((0x202, true, some (.addressOutOfRange 0x1000)), 9) := by decide +kernel

/-! ## Display -/

/-- V-DRW-9. -/
theorem test_cls :
    after (step (((loaded 0x00E0).setFb (Vector.replicate 32 5)).setReg vf 1)) (fun t => (lit t, t.reg vf)) =
      some ([], 1) := by decide +kernel
/-- V-DRW-2 with the pixels of P3 in row-major order: a glyph across both screen edges. -/
theorem test_drw :
    after (step ((((loaded 0xD125).setI 0x32).setReg 1 0x3E).setReg 2 0x1E)) (fun t => (lit t, t.reg vf)) =
      some ([(0, 0), (0, 1), (0, 62), (0, 63), (1, 1), (1, 62), (2, 1), (2, 62), (30, 0), (30, 1), (30, 62), (30, 63),
        (31, 1), (31, 62)], 0) := by decide +kernel
/-- V-DRW-6, second draw: C0 on row 0 is the row with its two leftmost pixels set. -/
theorem test_drw_collision :
    after (step (((loaded 0xD011).setI 0x300 |>.storeBytes 0x300 [0x60]).setFb (clearedFb.set 0 0xC000000000000000)))
      (fun t => (lit t, t.reg vf)) = some ([(0, 0), (0, 2)], 1) := by decide +kernel

/-! ## Input and timers -/

/-- V-KEY-2. -/
theorem test_skp :
    after (step (((loaded 0xE19E).setReg 1 7).setInput [5] [.other, .key 6, .exit, .key 7, .key 9] false)) input =
      some ([], [.key 9], true, 0x204) := by decide +kernel
/-- V-KEY-3. -/
theorem test_skp_miss :
    after (step (((loaded 0xE19E).setReg 1 7).setInput [] [.key 1, .key 2, .exit] false)) input =
      some ([1, 2], [], true, 0x202) := by decide +kernel
/-- V-KEY-6. -/
theorem test_sknp : after (step (((loaded 0xE1A1).setReg 1 7).setInput [7, 7] [] false)) input =
    some ([7], [], false, 0x202) := by decide +kernel
/-- V-KEY-8 (D12). -/
theorem test_sknp_no_such_key : after (step (((loaded 0xE1A1).setReg 1 0x17).setInput [2] [.key 7] false)) input =
    some ([2, 7], [], false, 0x204) := by decide +kernel
/-- V-KEY-12. -/
theorem test_ldVxK :
    after (step (((loaded 0xF50A).setReg 5 0xEE).setInput [4] [.key 0xF, .key 1] false)) (fun t => (input t, t.reg 5)) =
      some (([4], [.key 1], false, 0x202), 0x0F) := by decide +kernel
/-- V-KEY-11. -/
theorem test_ldVxK_exit :
    after (step (((loaded 0xF50A).setReg 5 0xEE).setInput [4] [.exit, .key 4] false)) (fun t => (input t, t.reg 5)) =
      some (([4], [.key 4], true, 0x200), 0xEE) := by decide +kernel
/-- V-TM-1. -/
theorem test_ldVxDt : after (step ((loaded 0xF307).setDt 0x2A)) (fun t => (t.reg 3, t.dt)) = some (0x2A, 0x29) := by
  decide +kernel
/-- V-TM-3. -/
theorem test_ldDtVx : after (step ((loaded 0xF015).setReg 0 3)) (fun t => t.dt) = some 2 := by decide +kernel
/-- V-TM-2. -/
theorem test_ldDtVx_untimed : after (step ((untimed 0xF015).setReg 0 3)) (fun t => t.dt) = some 3 := by decide +kernel
/-- V-TM-5. -/
theorem test_ldStVx : after (step ((loaded 0xF018).setReg 0 0x10)) (fun t => t.st) = some 0x0F := by decide +kernel

/-! ## Parameters (R8) at other values than the defaults -/

/-- The same state at other parameters. -/
def withParams (p : Params) (s : State) : State := { s with params := p }

/-- V-ALU-20, 23, 24 at `result_then_flag`: VF ends with 00, 00, 01. -/
theorem test_param_vfOrder :
    let other := withParams { Config.defaults with vfOrder := .resultThenFlag }
    after (step (other (((loaded 0x8F14).setReg vf 0x10).setReg 1 0x20))) (fun t => t.reg vf) = some 0 ∧
    after (step (other (((loaded 0x8F15).setReg vf 5).setReg 1 7))) (fun t => t.reg vf) = some 0 ∧
    after (step (other (((loaded 0x8F17).setReg vf 5).setReg 1 7))) (fun t => t.reg vf) = some 1 := by decide +kernel

/-- V-ALU-25, 26, 21 at `result_then_flag`: VF ends with 00, 01, 01. -/
theorem test_param_vfOrder_shifts :
    let other := withParams { Config.defaults with vfOrder := .resultThenFlag }
    after (step (other ((loaded 0x8F06).setReg vf 6))) (fun t => t.reg vf) = some 0 ∧
    after (step (other ((loaded 0x8F0E).setReg vf 0x81))) (fun t => t.reg vf) = some 1 ∧
    after (step (other ((loaded 0x8FF4).setReg vf 0x80))) (fun t => t.reg vf) = some 1 := by decide +kernel

/-- U8: two keys to append to a queue of capacity 3 that holds one fit, three do not. -/
theorem test_param_uqCap :
    let small := withParams { Config.defaults with uqCap := some 3 }
    after (step (small (((loaded 0xE19E).setReg 1 7).setInput [5] [.key 1, .other, .key 2] false))) input =
      some ([5, 1, 2], [], false, 0x202) ∧
    refusal (step (small (((loaded 0xE19E).setReg 1 7).setInput [5] [.key 1, .key 2, .key 3] false))) =
      some .queueFull := by decide +kernel

/-- R31, R40: at another FONT reset memory holds that font, and the same bytes of it are read through Fx65. -/
theorem test_param_font :
    let fonted := withParams { Config.defaults with font := Config.defaultFont.set 0 0xAB }
    after (step ((fonted (loaded 0xF065)).hostReset.storeBytes 0x200 [0xF0, 0x65])) (fun t => (t.reg 0, t.read 0, t.read 1)) =
      some (0xAB, 0xAB, 0x90) := by decide +kernel

/-! ## Witnesses: states and operands that meet the hypotheses of the statements, each clause at a boundary of its range -/

theorem test_witness_DecodeInvertsEncode : wellFormed (.sys 0x0ED) = true ∧ wellFormed (.ldVxMem 15) = true := by decide

theorem test_witness_EncodeInvertsDecode : decodeWord 0x0000 = .ok (.sys 0) ∧ decodeWord 0xFF65 = .ok (.ldVxMem 15) :=
  ⟨rfl, rfl⟩

/-- A word of row 2 that rows 0 and 1 do not match, a word no row matches, and the two overlaps. -/
theorem test_witness_FirstMatchingRowDecodes :
    (opcodeRows.map (rowMatches 0x00E1)).take 3 = [false, false, true] ∧
    opcodeRows.all (fun r => !rowMatches 0x5121 r) = true ∧
    (opcodeRows.map (rowMatches 0x00E0)).take 3 = [true, false, true] ∧
    (opcodeRows.map (rowMatches 0x00EE)).take 3 = [false, true, true] := by decide +kernel

/-- V-TK-7: the last word of memory, at 0xFFE, and the first one of a program; nothing announced, so the host's turn is
the state itself. -/
theorem test_witness_StepRunsTheDecodedInstruction :
    (State.reset.setPc 0xFFE).hostTurn = .next (State.reset.setPc 0xFFE) ∧ fetches (State.reset.setPc 0xFFE) ∧
    decodeBytes [(State.reset.setPc 0xFFE).read 0xFFE, (State.reset.setPc 0xFFE).read 0xFFF] = .ok (.sys 0, []) ∧
    wellFormed (.sys 0) = true :=
  ⟨rfl, ⟨rfl, by decide⟩, rfl, rfl⟩

/-- A host for each clause: no move, a tick, an event, a reset, a load that may be made and one that may not. -/
theorem test_witness_HostMovesPrecedeTheTick :
    State.reset.host = [] ∧ (State.reset.setHost [.tick false]).host = [.tick false] ∧
    (State.reset.setHost [.push .exit, .tick true]).host = [.push .exit, .tick true] ∧
    (State.reset.setHost [.reset]).host = [.reset] ∧
    (∃ t, State.load [1, 2] (State.reset.setHost [.load [1, 2], .tick true]) = .next t) ∧
    State.load [1, 2] (State.reset.closeLoad.setHost [.load [1, 2]]) = .refused .loadNotOpen :=
  ⟨rfl, rfl, rfl, rfl, ⟨_, rfl⟩, rfl⟩

/-- HandlerSeesTheAdvancedPc and FetchPastMemoryFaults: the last address a fetch may start at, and the first it may not. -/
theorem test_witness_fetch_bounds :
    fetches (State.reset.setPc 0xFFE) ∧ 0xFFE < (State.reset.setPc 0xFFF).pc.toNat ∧
    (State.reset.setPc 0xFFF).halted = false := by
  refine ⟨⟨rfl, ?_⟩, ?_, rfl⟩ <;> decide

theorem test_witness_HaltedTickChangesNothing : (State.reset.raise (.stackUnderflow 0x200)).halted = true := rfl

theorem test_witness_IllegalWordFaults :
    fetches (loaded 0xE19F) ∧ decodeWord (loaded 0xE19F).fetchWord = .error .illegalKey := ⟨⟨rfl, by decide⟩, rfl⟩

/-- One instruction that raises nothing and one that faults. -/
theorem test_witness_TickEndsWithTimersAndRender :
    (fetches (loaded 0x00E0) ∧ decodeWord (loaded 0x00E0).fetchWord = .ok .cls ∧
      ∃ u, exec .cls (handlerStart (loaded 0x00E0)) = .next u ∧ u.halted = false) ∧
    (fetches (loaded 0x00EE) ∧ decodeWord (loaded 0x00EE).fetchWord = .ok .ret ∧
      ∃ u, exec .ret (handlerStart (loaded 0x00EE)) = .next u ∧ u.halted = true) :=
  ⟨⟨⟨rfl, by decide⟩, rfl, _, rfl, rfl⟩, ⟨⟨rfl, by decide⟩, rfl, _, rfl, rfl⟩⟩

/-- A host without a load, and a step that is refused for each of the three reasons. -/
theorem test_witness_OnlyLoadsAndAFullQueueAreRefused :
    (State.reset.params.uqCap = none ∧
      ∀ image : List Byte, HostMove.load image ∉ (State.reset.setHost [.reset, .push .other, .tick false]).host) ∧
    refusal (step (State.reset.closeLoad.setHost [.load []])) = some .loadNotOpen ∧
    refusal (step (State.reset.setHost [.load (List.replicate 3585 0)])) = some .imageTooLong ∧
    refusal (step (withParams { Config.defaults with uqCap := some 0 }
      ((loaded 0xE1A1).setInput [] [.key 3] false))) = some .queueFull := by
  refine ⟨⟨rfl, fun image h => ?_⟩, ?_, ?_, ?_⟩
  · rcases List.mem_cons.1 h with h | h
    · cases h
    rcases List.mem_cons.1 h with h | h
    · cases h
    rcases List.mem_singleton.1 h with ⟨⟩
  all_goals decide +kernel

/-- ResetLeavesTheListedValues, InvariantHoldsAtReset: both sides of the font's end, and a FONT with glyph A (R31), the default
one and another. -/
theorem test_witness_ResetLeavesTheListedValues :
    Config.defaultFont.hasGlyphA = true ∧ Font.hasGlyphA (Config.defaultFont.set 0 0xAB) = true ∧
    State.reset = State.resetWith Config.defaults ∧ State.reset.read 79 = 0x80 ∧ State.reset.read 80 = 0 ∧
    State.reset.read 0xFFF = 0 := by
  decide +kernel

/-- The longest image a load takes, the shortest it does not, and a load that comes too late. -/
theorem test_witness_LoadCopiesTheImage :
    (State.reset.memWf = true ∧ State.reset.loadOpen = true ∧ (List.replicate 3584 (0 : Byte)).length ≤ 3584) ∧
    State.reset.closeLoad.loadOpen = false ∧
    (State.reset.loadOpen = true ∧ 3584 < (List.replicate 3585 (0 : Byte)).length) := by
  refine ⟨⟨rfl, rfl, ?_⟩, rfl, rfl, ?_⟩ <;> rw [List.length_replicate]; decide

theorem test_witness_FirstInstructionIsAtTheProgramBase :
    ([] : List Byte).length + 2 ≤ 3584 ∧ (List.replicate 3582 (0 : Byte)).length + 2 ≤ 3584 := by
  rw [List.length_replicate]; decide

/-- Each fault an instruction can raise, at the first value that raises it, from a running core. -/
theorem test_witness_InstructionFaultsArePrecise :
    State.reset.halted = false ∧
    after (exec .ret State.reset) (fun t => t.halted) = some true ∧
    after (exec (.call 0x300) { State.reset with sp := 15 }) (fun t => t.halted) = some true ∧
    after (exec (.drw 0 0 1) (State.reset.setI 0x1000)) (fun t => t.fault) = some (some (.addressOutOfRange 0x1000)) ∧
    after (exec (.ldB 0) (State.reset.setI 0xFFE)) (fun t => t.fault) = some (some (.addressOutOfRange 0x1000)) ∧
    after (exec (.ldMemVx 15) (State.reset.setI 0xFF1)) (fun t => t.fault) = some (some (.addressOutOfRange 0x1000)) ∧
    after (exec (.ldVxMem 0) (State.reset.setI 0xFFFF)) (fun t => t.fault) = some (some (.addressOutOfRange 0xFFFF)) := by
  decide +kernel

/-- EveryInstructionKeepsItsFrame: an instruction other than the key skips, and an unbounded queue. -/
theorem test_witness_EveryInstructionKeepsItsFrame :
    (∀ x : Reg, Instr.cls ≠ .skp x ∧ Instr.cls ≠ .sknp x) ∧ State.reset.params.uqCap = none := by decide

/-- The four clauses of MemoryInstructionsFaultPastTheEnd at their first value of I, and on the other side at their last. -/
theorem test_witness_MemoryInstructionsFaultPastTheEnd :
    (0 < (5 : Nibble).toNat ∧ 0xFFF < (State.reset.setI 0xFFC).i.toNat + (5 : Nibble).toNat - 1) ∧
    0xFFF < (State.reset.setI 0xFFE).i.toNat + 2 ∧ 0xFFF < (State.reset.setI 0xFF1).i.toNat + (15 : Reg).toNat ∧
    0xFFF < (State.reset.setI 0x1000).i.toNat + (0 : Reg).toNat ∧
    ((0 : Nibble).toNat = 0 ∧ (State.reset.setI 0xFFB).i.toNat + (5 : Nibble).toNat - 1 ≤ 0xFFF) ∧
    (State.reset.setI 0xFFD).i.toNat + 2 ≤ 0xFFF ∧ (State.reset.setI 0xFF0).i.toNat + (15 : Reg).toNat ≤ 0xFFF ∧
    (State.reset.setI 0xFFF).i.toNat + (0 : Reg).toNat ≤ 0xFFF := by decide

/-- The neighbours of the two special words, and a running core that fetches one of them. -/
theorem test_witness_SysIsANoOp :
    ((0x00E1 : Word) &&& 0xF000 = 0x0000 ∧ (0x00E1 : Word) ≠ 0x00E0 ∧ (0x00E1 : Word) ≠ 0x00EE) ∧
    fetches (loaded 0x00EF) ∧ (loaded 0x00EF).fetchWord = 0x00EF := by
  refine ⟨by decide, ⟨rfl, by decide⟩, rfl⟩

/-- A word for each `readsAs` of the statements on calls, the flag-writing ALU functions, RND and DRW. -/
theorem test_witness_readsAs_flags :
    (0x2FFF : Word) &&& 0xF000 = 0x2000 ∧ (0x8FF4 : Word) &&& 0xF00F = 0x8004 ∧ (0x8FF5 : Word) &&& 0xF00F = 0x8005 ∧
    (0x8FF6 : Word) &&& 0xF00F = 0x8006 ∧ (0x8FF7 : Word) &&& 0xF00F = 0x8007 ∧ (0x8FFE : Word) &&& 0xF00F = 0x800E ∧
    (0xCFFF : Word) &&& 0xF000 = 0xC000 ∧ (0xDFFF : Word) &&& 0xF000 = 0xD000 := by decide

/-- A word for each `readsAs` of the statements on the key, timer and memory instructions and ADD I,Vx. -/
theorem test_witness_readsAs_misc :
    (0xEF9E : Word) &&& 0xF0FF = 0xE09E ∧ (0xEFA1 : Word) &&& 0xF0FF = 0xE0A1 ∧ (0xFF07 : Word) &&& 0xF0FF = 0xF007 ∧
    (0xFF0A : Word) &&& 0xF0FF = 0xF00A ∧ (0xFF15 : Word) &&& 0xF0FF = 0xF015 ∧ (0xFF18 : Word) &&& 0xF0FF = 0xF018 ∧
    (0xFF1E : Word) &&& 0xF0FF = 0xF01E ∧ (0xFF33 : Word) &&& 0xF0FF = 0xF033 ∧ (0xFF55 : Word) &&& 0xF0FF = 0xF055 ∧
    (0xFF65 : Word) &&& 0xF0FF = 0xF065 := by decide

/-- A word for each `readsAs` of the statements on jumps, skips, loads, logic, LD I,aaa and LD F,Vx. -/
theorem test_witness_readsAs :
    (0x1FFF : Word) &&& 0xF000 = 0x1000 ∧ (0xB000 : Word) &&& 0xF000 = 0xB000 ∧ (0x3F00 : Word) &&& 0xF000 = 0x3000 ∧
    (0x4F00 : Word) &&& 0xF000 = 0x4000 ∧ (0x5FF0 : Word) &&& 0xF00F = 0x5000 ∧ (0x9FF0 : Word) &&& 0xF00F = 0x9000 ∧
    (0x6FFF : Word) &&& 0xF000 = 0x6000 ∧ (0x8FF0 : Word) &&& 0xF00F = 0x8000 ∧ (0x7FFF : Word) &&& 0xF000 = 0x7000 ∧
    (0x8FF1 : Word) &&& 0xF00F = 0x8001 ∧ (0x8FF2 : Word) &&& 0xF00F = 0x8002 ∧ (0x8FF3 : Word) &&& 0xF00F = 0x8003 ∧
    (0xAFFF : Word) &&& 0xF000 = 0xA000 ∧ (0xFF29 : Word) &&& 0xF0FF = 0xF029 := by decide

/-- SkipOnRegisters: an illegal low nibble of either opcode. -/
theorem test_witness_SkipOnRegisters :
    (opField 0x5121 = 0x5 ∧ nField 0x5121 ≠ 0) ∧ (opField 0x912F = 0x9 ∧ nField 0x912F ≠ 0) := by decide

/-- CallPushesTheReturnAddress at 14 and 15, ReturnPopsTheReturnAddress at 1 and 0: both sides of each stack bound. -/
theorem test_witness_stack_bounds :
    ({ State.reset with sp := 14 } : State).sp ≠ 15 ∧ ({ State.reset with sp := 15 } : State).sp = 15 ∧
    ({ State.reset with sp := 1 } : State).sp ≠ 0 ∧ State.reset.sp = 0 := by decide

/-- P2's call: CALL 0x210 at 0x200 and a RET at 0x210. -/
theorem test_witness_CallThenReturnComesBack :
    let s := (loaded 0x2210).storeBytes 0x210 [0x00, 0xEE]
    fetches s ∧ s.sp ≠ 15 ∧ s.fetchWord = encode (.call 0x210) ∧ (0x210 : Imm12).toNat ≤ 0xFFE ∧
      wordOfBytes (s.read 0x210) (s.read 0x211) = 0x00EE := by
  refine ⟨⟨rfl, by decide⟩, by decide, rfl, by decide, rfl⟩

/-- The ALU statements' two orders of the writes. -/
theorem test_witness_vfOrder :
    State.reset.params.vfOrder = .flagThenResult ∧
    (withParams { Config.defaults with vfOrder := .resultThenFlag } State.reset).params.vfOrder = .resultThenFlag :=
  ⟨rfl, rfl⟩

/-- A destination other than VF, for the clauses about the flag (loads, ALU, TimerInstructionsMoveTheTimers). -/
theorem test_witness_not_vf : (14 : Reg) ≠ vf := by decide

/-- RandomIsMasked: a mask with a zero bit. -/
theorem test_witness_RandomIsMasked : (0x0F : Byte).getLsbD 7 = false := by decide

/-- DecimalDigitsAreStored, RegisterBlockIsStored, RegisterBlockIsLoaded: the highest I from which each still fits, over canonical
memory. -/
theorem test_witness_memory_bounds :
    State.reset.memWf = true ∧ (State.reset.setI 0xFFD).i.toNat ≤ 0xFFD ∧
    (State.reset.setI 0xFF0).i.toNat + (15 : Reg).toNat ≤ 0xFFF ∧
    (State.reset.setI 0xFFF).i.toNat + (0 : Reg).toNat ≤ 0xFFF := by decide

theorem test_witness_StoredBytesAreFetched :
    let s := (State.reset.setI 0x1FE).setPc 0x200
    s.memWf = true ∧ s.i.toNat + (3 : Reg).toNat ≤ 0xFFF ∧ (3 : Reg).toNat = (2 : Reg).toNat + 1 ∧
      (3 : Reg).toNat ≤ (3 : Reg).toNat ∧ s.pc.toNat = s.i.toNat + (2 : Reg).toNat := by decide

/-- Two ways to the same memory: a byte written and put back to its reset contents, and nothing written. -/
theorem test_witness_EqualReadsMeanEqualMemory :
    (Memory.write Config.defaultFont (Memory.write Config.defaultFont [] 0x300 7) 0x300 0).wf Config.defaultFont = true ∧
    Memory.write Config.defaultFont (Memory.write Config.defaultFont [] 0x300 7) 0x300 0 = [] := by
  decide +kernel

/-- SpriteTogglesTheCoveredPixels and DrawingTwiceRestores: the longest sprite; a covered and an uncovered pixel of a one-row
sprite that wraps at the right edge, on a screen that is clear under it. -/
theorem test_witness_SpriteTogglesTheCoveredPixels :
    (List.replicate 15 (0xFF : Byte)).length ≤ 15 ∧ covers 60 31 [0xF8] 31 0 ∧ ¬ covers 60 31 [0xF8] 31 1 ∧
    ∀ r c, covers 60 31 [0xF8] r c → clearedFb.pixel r c = false := by
  refine ⟨by decide, ⟨0, 4, by decide, by decide, by decide, rfl, rfl⟩, ?_, fun r c _ => ?_⟩
  · rintro ⟨k, j, hk, hj, hb, -, hc⟩
    simp only [List.length_singleton] at hk
    obtain rfl : k = 0 := by omega
    have : j = 5 := by omega
    subst this
    exact absurd hb (by decide)
  · unfold Framebuffer.pixel clearedFb
    split <;> simp

/-- V-DRW-4 and V-DRW-8: no byte to read with I = 0xFFFF, and the highest I for four. -/
theorem test_witness_DrawPutsTheCollisionInTheFlag :
    (0 : Nibble).toNat = 0 ∧ (State.reset.setI 0xFFC).i.toNat + (4 : Nibble).toNat - 1 ≤ 0xFFF ∧
    after (exec (.drw 0 0 0) ((State.reset.setI 0xFFFF).setReg vf 1)) (fun t => (t.halted, t.reg vf)) = some (false, 0) := by
  decide +kernel

/-- V-KEY-1 and V-KEY-2: a match in the queue, a match in the stream after an Exit, and a miss. -/
theorem test_witness_KeyCheckConsumesUpToTheMatch :
    (([5, 7, 9] : List Nibble) = [5] ++ 7 :: [9] ∧ (7 : Nibble).setWidth 8 = (7 : Byte) ∧
      ∀ q ∈ ([5] : List Nibble), q.setWidth 8 ≠ (7 : Byte)) ∧
    ((∀ q ∈ ([5] : List Nibble), q.setWidth 8 ≠ (7 : Byte)) ∧
      ([.other, .key 6, .exit, .key 7, .key 9] : List RawEvent) = [.other, .key 6, .exit] ++ .key 7 :: [.key 9] ∧
      ∀ q ∈ keysOf [.other, .key 6, .exit], q.setWidth 8 ≠ (7 : Byte)) ∧
    ((∀ q ∈ ([] : List Nibble), q.setWidth 8 ≠ (7 : Byte)) ∧
      ∀ q ∈ keysOf [.key 1, .key 2, .exit], q.setWidth 8 ≠ (7 : Byte)) := by decide

/-- Room in an unbounded queue, the last place of a finite one, and none (KeyCheckConsumesUpToTheMatch, NoKeyAboveFifteen). -/
theorem test_witness_roomFor :
    roomFor none 1000 1000 ∧ roomFor (some 3) 1 2 ∧ roomFor (some 3) 3 0 ∧ ¬ roomFor (some 3) 1 3 := by
  refine ⟨.inr (fun c h => ?_), .inr (fun c h => ?_), .inl rfl, fun h => ?_⟩
  · cases h
  · cases h
    decide
  · rcases h with h | h
    · cases h
    · exact absurd (h 3 rfl) (by decide)

/-- KeySkipsFollowTheCheck: a check with a result, and one without. -/
theorem test_witness_KeySkipsFollowTheCheck :
    (∃ c, checkIfPressed State.reset.params.uqCap (State.reset.reg 1) State.reset = some c) ∧
    State.reset.params.uqCap = none ∧
    checkIfPressed (some 0) (State.reset.reg 1) (State.reset.setInput [] [.key 3] false) = none :=
  ⟨⟨_, rfl⟩, rfl, rfl⟩

theorem test_witness_NoKeyAboveFifteen : 16 ≤ ((State.reset.setReg 1 16).reg 1).toNat := by decide

/-- V-KEY-9: key 5 missed by a check for 7, from the stream and from the queue. -/
theorem test_witness_UnmatchedKeyStaysAvailable :
    (∃ c, checkIfPressed none 7 (State.reset.setInput [] [.key 5] false) = some c ∧ c.hit = false ∧
      RawEvent.key 5 ∈ (State.reset.setInput [] [.key 5] false).raw) ∧
    (∃ c, checkIfPressed none 7 (State.reset.setInput [5] [] false) = some c ∧ c.hit = false ∧
      5 ∈ (State.reset.setInput [5] [] false).uq) :=
  ⟨⟨_, rfl, rfl, by decide⟩, ⟨_, rfl, rfl, by decide⟩⟩

/-- A stream for each clause of KeyWaitTakesOneEvent. -/
theorem test_witness_KeyWaitTakesOneEvent :
    State.reset.raw = [] ∧ (State.reset.setInput [] [.key 15] false).raw = .key 15 :: [] ∧
    (State.reset.setInput [] [.other] false).raw = .other :: [] ∧
    (State.reset.setInput [] [.exit, .key 4] false).raw = .exit :: [.key 4] := ⟨rfl, rfl, rfl, rfl⟩

/-- V-KEY-14. -/
theorem test_witness_WaitingTickRetriesTheSameInstruction :
    fetches (loaded 0xF00A) ∧ (loaded 0xF00A).fetchWord = encode (.ldVxK 0) ∧ (loaded 0xF00A).raw = [] :=
  ⟨⟨rfl, by decide⟩, rfl, rfl⟩

/-- The invariant holds of the reset state, from which a step answers a next state. -/
theorem test_witness_EveryStepKeepsTheInvariant :
    MachineInv State.reset ∧ ∃ t, step State.reset = .next t := by
  refine ⟨⟨by decide, rfl, rfl, by decide, ?_, ?_, fun h => ?_, fun c h => ?_⟩, _, rfl⟩
  · simp [State.slot, State.reset]
  · simp [State.slot, State.reset]
  · cases h
  · cases h

/-- A host that does not reset, a raised exit flag, and a halted core that a step runs over. -/
theorem test_witness_ExitFlagAndHaltAreSticky :
    let s := ((State.reset.setInput [] [] true).raise (.stackUnderflow 0x200)).closeLoad
    HostMove.reset ∉ s.host ∧ s.exitFlag = true ∧ s.halted = true ∧ s.loadOpen = false ∧ ∃ t, step s = .next t := by
  exact ⟨List.not_mem_nil, rfl, rfl, rfl, _, rfl⟩

/-- Two states that differ in a dead slot only. -/
theorem test_witness_DeadStackSlotsAreUnobservable :
    let s := { State.reset with sp := 1 }
    let s' := { s with stack := s.stack.set 1 0x300 }
    sameLiveState s s' ∧ s ≠ s' ∧ ∃ t, step s = .next t := by
  refine ⟨⟨rfl, ?_⟩, by decide, _, rfl⟩
  decide

end Sys2Proof.Tests
end

section
/-!
PROOFS. What reset leaves (R40), and that it has the machine invariant.
-/

namespace Sys2Proof.Safety

open Sys2Proof.Machine

@[simp] theorem resetWith_reg (p : Params) (r : Reg) : (State.resetWith p).reg r = 0 := State.reset_reg r
@[simp] theorem resetWith_slot (p : Params) (j : Nibble) : (State.resetWith p).slot j = 0 := State.reset_slot j
@[simp] theorem resetWith_read (p : Params) (a : Nat) : (State.resetWith p).read a = Config.resetByte p.font a := rfl

/-- The source's constraint on FONT, byte by byte (R8). -/
theorem hasGlyphA_iff (font : Font) :
    font.hasGlyphA = true ↔ font[50] = 0xF0 ∧ font[51] = 0x90 ∧ font[52] = 0xF0 ∧ font[53] = 0x90 ∧ font[54] = 0x90 := by
  simp [Font.hasGlyphA, and_assoc]

theorem readBytes_glyphA {p : Params} (h : p.font.hasGlyphA = true) :
    (State.resetWith p).readBytes 50 5 = [0xF0, 0x90, 0xF0, 0x90, 0x90] := by
  obtain ⟨h0, h1, h2, h3, h4⟩ := (hasGlyphA_iff p.font).1 h
  simp [State.readBytes, List.range_succ, Config.resetByte, h0, h1, h2, h3, h4]

theorem defaultFont_hasGlyphA : Config.defaultFont.hasGlyphA = true := by decide

theorem machineInv_resetWith {p : Params} (h : p.font.hasGlyphA = true) : MachineInv (State.resetWith p) where
  glyphA := h
  memCanonical := rfl
  faultIffHalted := rfl
  pcBound := show (0x200 : Word).toNat ≤ 0x10FE by decide
  slotBound j := by simp
  slot15 := resetWith_slot p 15
  haltedLoadClosed h := by cases h
  queueFits _ _ := Nat.zero_le _

/-- Settles O56: reset at any parameters with glyph A, and the defaults have it. -/
theorem invariantHoldsAtReset : Obligations.InvariantHoldsAtReset :=
  ⟨fun _ h => machineInv_resetWith h, machineInv_resetWith defaultFont_hasGlyphA⟩

/-- Settles O14: most values stand in the definition; memory reads FONT and zeroes, and FONT gives glyph A. -/
theorem resetLeavesTheListedValues : Obligations.ResetLeavesTheListedValues := by
  refine ⟨rfl, defaultFont_hasGlyphA, rfl, rfl, ?_⟩
  rintro p s rfl
  refine ⟨rfl, fun a h => ?_, fun a h => ?_, readBytes_glyphA, resetWith_reg p, rfl, rfl, rfl, resetWith_slot p, rfl, rfl,
    clearedFb_pixel, rfl, rfl, rfl, rfl⟩
  · rw [resetWith_read, Config.resetByte, dif_pos h]
  · rw [resetWith_read, Config.resetByte, dif_neg (by omega)]

end Sys2Proof.Safety
end

section
/-!
PROOFS. Frames: what each named operation of the state leaves alone, in the words of the statements, and from these the frame
of every instruction (R13).
-/

namespace Sys2Proof.Safety

open Sys2Proof.Machine

/-! ## Agreement on parts -/

/-- A change of nothing keeps every part. -/
theorem samePart_refl (p : Part) (s : State) : samePart p s s := by
  cases p <;> simp [samePart]

theorem samePart_trans {p : Part} {s t u : State} (hst : samePart p s t) (htu : samePart p t u) : samePart p s u := by
  cases p
  case mem | regs | stack => exact fun a => (htu a).trans (hst a)
  case fb => exact fun r c => (htu r c).trans (hst r c)
  all_goals exact Eq.trans htu hst

theorem sameExcept_refl (ps : List Part) (s : State) : sameExcept ps s s := fun p _ => samePart_refl p s

theorem sameExcept.trans {ps : List Part} {s t u : State} (hst : sameExcept ps s t) (htu : sameExcept ps t u) :
    sameExcept ps s u := fun p hp => samePart_trans (hst p hp) (htu p hp)

theorem sameExcept.mono {ps qs : List Part} {s t : State} (h : sameExcept ps s t) (hsub : ps ⊆ qs) : sameExcept qs s t :=
  fun p hp => h p fun hmem => hp (hsub hmem)

/-! ## The named operations -/

section
variable (s : State)

theorem sameExcept_setReg (x : Reg) (b : Byte) : sameExcept [.regs] s (s.setReg x b) := by
  intro p hp; cases p <;> simp [samePart] at hp ⊢
theorem sameExcept_setI (w : Word) : sameExcept [.i] s (s.setI w) := by
  intro p hp; cases p <;> simp [samePart] at hp ⊢
theorem sameExcept_setPc (w : Word) : sameExcept [.pc] s (s.setPc w) := by
  intro p hp; cases p <;> simp [samePart] at hp ⊢
theorem sameExcept_setDt (b : Byte) : sameExcept [.dt] s (s.setDt b) := by
  intro p hp; cases p <;> simp [samePart] at hp ⊢
theorem sameExcept_setSt (b : Byte) : sameExcept [.st] s (s.setSt b) := by
  intro p hp; cases p <;> simp [samePart] at hp ⊢
theorem sameExcept_setFb (f : Framebuffer) : sameExcept [.fb] s (s.setFb f) := by
  intro p hp; cases p <;> simp [samePart] at hp ⊢
theorem sameExcept_setInput (q : List Nibble) (rs : List RawEvent) (e : Bool) :
    sameExcept [.uq, .raw, .exitFlag] s (s.setInput q rs e) := by
  intro p hp; cases p <;> simp [samePart] at hp ⊢
theorem sameExcept_countDraw : sameExcept [.draws] s s.countDraw := by
  intro p hp; cases p <;> simp [samePart] at hp ⊢
theorem sameExcept_storeBytes (a : Nat) (bs : List Byte) : sameExcept [.mem] s (s.storeBytes a bs) := by
  intro p hp; cases p <;> simp [samePart] at hp ⊢
theorem sameExcept_pushReturn : sameExcept [.stack, .sp] s s.pushReturn := by
  intro p hp; cases p <;> simp [samePart] at hp ⊢
theorem sameExcept_popReturn : sameExcept [.sp, .pc] s s.popReturn := by
  intro p hp; cases p <;> simp [samePart] at hp ⊢
theorem sameExcept_raise (f : Fault) : sameExcept [.halted, .fault] s (s.raise f) := by
  intro p hp; cases p <;> simp [samePart] at hp ⊢
theorem sameExcept_writeFlagged (x : Reg) (b c : Byte) : sameExcept [.regs] s (s.writeFlagged x b c) := by
  intro p hp; cases p <;> simp [samePart] at hp ⊢
theorem sameExcept_loadRegs (a n : Nat) : sameExcept [.regs] s (s.loadRegs a n) := by
  intro p hp; cases p <;> simp [samePart] at hp ⊢
theorem sameExcept_draw (x y : Nat) (bs : List Byte) : sameExcept [.fb, .regs] s (s.draw x y bs) := by
  intro p hp; cases p <;> simp [samePart] at hp ⊢

theorem sameExcept_skipIf (c : Bool) : sameExcept [.pc] s (s.skipIf c) := by
  rw [State.skipIf_eq]; exact sameExcept_setPc s _

/-- An answered key wait writes the register, every other one rewinds; either may consume an event (R233, R237). -/
theorem sameExcept_waitKey (x : Reg) : sameExcept [.regs, .pc, .raw, .exitFlag] s (s.waitKey x) := by
  intro p hp
  unfold State.waitKey
  split <;> cases p <;> simp [samePart] at hp ⊢

end

/-! ## Registers and bytes -/

theorem sameExcept.regsExcept {ps : List Part} {s t : State} (h : sameExcept ps s t) (hregs : Part.regs ∉ ps)
    (xs : List Reg) : regsExcept xs s t := fun r _ => h .regs hregs r

theorem sameExcept.memExcept {ps : List Part} {s t : State} (h : sameExcept ps s t) (hmem : Part.mem ∉ ps) (a n : Nat) :
    memExcept a n s t := fun b _ => h .mem hmem b

theorem regsExcept_setReg (s : State) (x : Reg) (b : Byte) : regsExcept [x] s (s.setReg x b) := by
  intro r hr
  exact State.reg_setReg_ne s b (by simpa using hr)

theorem regsExcept_writeFlagged (s : State) (x : Reg) (b c : Byte) : regsExcept [x, vf] s (s.writeFlagged x b c) := by
  intro r hr
  obtain ⟨hx, hvf⟩ : r ≠ x ∧ r ≠ vf := by simpa using hr
  exact State.reg_writeFlagged_other s b c hx hvf

theorem regsExcept_draw (s : State) (x y : Nat) (bs : List Byte) : regsExcept [vf] s (s.draw x y bs) := by
  intro r hr
  rw [State.draw_reg, if_neg (by simpa using hr)]

/-- A register below `n` is the one `BitVec.ofNat 4` makes of its number. -/
theorem regsExcept_loadRegs (s : State) (a n : Nat) (hn : n ≤ 16) :
    regsExcept ((List.range n).map (BitVec.ofNat 4)) s (s.loadRegs a n) := by
  intro r hr
  rw [State.reg_loadRegs s a n hn, if_neg]
  intro hlt
  exact hr (List.mem_map.2 ⟨r.toNat, List.mem_range.2 hlt, by simp⟩)

theorem regsExcept_waitKey (s : State) (x : Reg) : regsExcept [x] s (s.waitKey x) := by
  intro r hr
  unfold State.waitKey
  split <;> simp_all

theorem memExcept_storeBytes (s : State) (a : Nat) (bs : List Byte) : memExcept a bs.length s (s.storeBytes a bs) :=
  fun _ hb => State.read_storeBytes_outside s a bs hb

/-! ## The frame of an instruction (R13) -/

/-- Going from `s` to `t` changed only what `mayWrite`, `regsWritten` and `storeCount` list for `i`. -/
def keepsFrame (i : Instr) (s t : State) : Prop :=
  sameExcept (mayWrite i) s t ∧ regsExcept (regsWritten i) s t ∧ memExcept (storeBase s) (storeCount i) s t

section
variable {i : Instr} {s t : State} {ps : List Part}

/-- The frame of an instruction that writes neither registers nor memory. -/
theorem keepsFrame_of_sameExcept (h : sameExcept ps s t) (hps : ps ⊆ mayWrite i)
    (hregs : Part.regs ∉ ps) (hmem : Part.mem ∉ ps) : keepsFrame i s t :=
  ⟨h.mono hps, h.regsExcept hregs _, h.memExcept hmem _ _⟩

/-- The frame of an instruction that writes registers and no memory. -/
theorem keepsFrame_of_regsExcept (h : sameExcept ps s t) (hps : ps ⊆ mayWrite i) (hmem : Part.mem ∉ ps)
    (hregs : regsExcept (regsWritten i) s t) : keepsFrame i s t :=
  ⟨h.mono hps, hregs, h.memExcept hmem _ _⟩

end

theorem keepsFrame_raise {i : Instr} (s : State) (f : Fault) (h : [Part.halted, .fault] ⊆ mayWrite i) :
    keepsFrame i s (s.raise f) :=
  keepsFrame_of_sameExcept (sameExcept_raise s f) h (by decide) (by decide)

theorem keepsFrame_skipIf {i : Instr} (s : State) (c : Bool) (h : [Part.pc] ⊆ mayWrite i) :
    keepsFrame i s (s.skipIf c) :=
  keepsFrame_of_sameExcept (sameExcept_skipIf s c) h (by decide) (by decide)

theorem keepsFrame_setReg {i : Instr} (s : State) (x : Reg) (b : Byte) (hx : regsWritten i = [x])
    (h : [Part.regs] ⊆ mayWrite i) : keepsFrame i s (s.setReg x b) :=
  keepsFrame_of_regsExcept (sameExcept_setReg s x b) h (by decide) (hx ▸ regsExcept_setReg s x b)

theorem keepsFrame_writeFlagged {i : Instr} (s : State) (x : Reg) (b c : Byte) (hx : regsWritten i = [x, vf])
    (h : [Part.regs] ⊆ mayWrite i) : keepsFrame i s (s.writeFlagged x b c) :=
  keepsFrame_of_regsExcept (sameExcept_writeFlagged s x b c) h (by decide) (hx ▸ regsExcept_writeFlagged s x b c)

theorem keepsFrame_setI {i : Instr} (s : State) (w : Word) (h : [Part.i] ⊆ mayWrite i) : keepsFrame i s (s.setI w) :=
  keepsFrame_of_sameExcept (sameExcept_setI s w) h (by decide) (by decide)

theorem keepsFrame_setPc {i : Instr} (s : State) (w : Word) (h : [Part.pc] ⊆ mayWrite i) : keepsFrame i s (s.setPc w) :=
  keepsFrame_of_sameExcept (sameExcept_setPc s w) h (by decide) (by decide)

/-- The bytes an instruction stores start at I. -/
theorem keepsFrame_storeBytes {i : Instr} (s : State) (bs : List Byte) (hlen : bs.length = storeCount i)
    (h : [Part.mem] ⊆ mayWrite i) : keepsFrame i s (s.storeBytes s.base bs) :=
  ⟨(sameExcept_storeBytes s s.base bs).mono h, (sameExcept_storeBytes s s.base bs).regsExcept (by decide) _,
    hlen ▸ memExcept_storeBytes s s.base bs⟩

theorem keepsFrame_skipOnKey {i : Instr} {wanted : Bool} {x : Reg} {s t : State} (h : skipOnKey wanted x s = .next t)
    (hw : [Part.pc, .uq, .raw, .exitFlag] ⊆ mayWrite i) : keepsFrame i s t := by
  obtain ⟨c, -, rfl⟩ := skipOnKey_next h
  exact keepsFrame_of_sameExcept
    (((sameExcept_setInput s _ _ _).mono (by decide)).trans ((sameExcept_skipIf _ _).mono (by decide))) hw (by decide) (by decide)

/-- Every instruction keeps its frame: each handler is one of the operations above, or a choice between one and a fault. -/
theorem exec_keepsFrame {i : Instr} {s t : State} (h : exec i s = .next t) : keepsFrame i s t := by
  cases i
  case cls =>
    cases h; exact keepsFrame_of_sameExcept (sameExcept_setFb s _) (List.Subset.refl _) (by decide) (by decide)
  case sys =>
    cases h; exact keepsFrame_of_sameExcept (sameExcept_refl [] s) (List.Subset.refl _) (by decide) (by decide)
  case jp | jpV0 => cases h; exact keepsFrame_setPc s _ (List.Subset.refl _)
  case call =>
    cases h
    split
    · exact keepsFrame_raise s _ (by simp [mayWrite])
    · exact keepsFrame_of_sameExcept
        (((sameExcept_pushReturn s).mono (by decide)).trans ((sameExcept_setPc _ _).mono (by decide)))
        (show [Part.stack, .sp, .pc] ⊆ _ by simp [mayWrite]) (by decide) (by decide)
  case ret =>
    cases h
    split
    · exact keepsFrame_raise s _ (by simp [mayWrite])
    · exact keepsFrame_of_sameExcept (sameExcept_popReturn s) (by simp [mayWrite]) (by decide) (by decide)
  case seImm | sneImm | seReg | sneReg => cases h; exact keepsFrame_skipIf s _ (List.Subset.refl _)
  case ldImm | addImm | ldReg | orReg | andReg | xorReg | ldVxDt => cases h; exact keepsFrame_setReg s _ _ rfl (List.Subset.refl _)
  case addReg | subReg | shr | subn | shl => cases h; exact keepsFrame_writeFlagged s _ _ _ rfl (List.Subset.refl _)
  case rnd x kk =>
    cases h
    exact keepsFrame_of_regsExcept (ps := [.regs, .draws])
      (((sameExcept_countDraw s).mono (by decide)).trans ((sameExcept_setReg _ x _).mono (by decide)))
      (List.Subset.refl _) (by decide) (regsExcept_setReg s.countDraw x _)
  case ldI | addI | ldF => cases h; exact keepsFrame_setI s _ (List.Subset.refl _)
  case ldDtVx =>
    cases h; exact keepsFrame_of_sameExcept (sameExcept_setDt s _) (List.Subset.refl _) (by decide) (by decide)
  case ldStVx =>
    cases h; exact keepsFrame_of_sameExcept (sameExcept_setSt s _) (List.Subset.refl _) (by decide) (by decide)
  case drw =>
    cases h
    split
    · exact keepsFrame_of_regsExcept (sameExcept_draw s _ _ _) (by simp [mayWrite]) (by decide) (regsExcept_draw s _ _ _)
    · exact keepsFrame_raise s _ (by simp [mayWrite])
  case skp | sknp => exact keepsFrame_skipOnKey h (List.Subset.refl _)
  case ldVxK x =>
    cases h
    exact keepsFrame_of_regsExcept (sameExcept_waitKey s x) (List.Subset.refl _) (by decide) (regsExcept_waitKey s x)
  case ldB =>
    cases h
    split
    · exact keepsFrame_storeBytes s _ rfl (by simp [mayWrite])
    · exact keepsFrame_raise s _ (by simp [mayWrite])
  case ldMemVx x =>
    cases h
    split
    · exact keepsFrame_storeBytes s _ (State.regBlock_length s x) (by simp [mayWrite])
    · exact keepsFrame_raise s _ (by simp [mayWrite])
  case ldVxMem x =>
    cases h
    split
    · exact keepsFrame_of_regsExcept (sameExcept_loadRegs s _ _) (by simp [mayWrite]) (by decide)
        (regsExcept_loadRegs s _ _ (blockLength_le x))
    · exact keepsFrame_raise s _ (by simp [mayWrite])

/-- Only SKP and SKNP on a finite queue can fail to answer (U8). -/
theorem exec_answers {i : Instr} {s : State} (h : (∀ x : Reg, i ≠ .skp x ∧ i ≠ .sknp x) ∨ s.params.uqCap = none) :
    ∃ t, exec i s = .next t := by
  rcases exec_outcome i s with hnext | ⟨x, hkey, -, hcap, -⟩
  · exact hnext
  · rcases h with hno | hnone
    · exact absurd hkey (not_or.2 (hno x))
    · exact absurd hnone hcap

/-- Settles O18: every handler answers unless a finite queue is full, and keeps its frame case by case. -/
theorem everyInstructionKeepsItsFrame : Obligations.EveryInstructionKeepsItsFrame :=
  fun _ _ => ⟨exec_answers, fun _ h => exec_keepsFrame h⟩

end Sys2Proof.Safety
end

section
/-!
PROOFS. The machine invariant: the few shapes of change an instruction can make, and that each of them, the host's moves and
the rest of the tick keep the invariant and the parameters.
-/

namespace Sys2Proof.Safety

open Sys2Proof.Machine

/-! ## A key check keeps a finite queue within its capacity (R35, U8) -/

theorem length_afterMatch_le {e : Byte} {uq rest : List Nibble} (h : afterMatch e uq = some rest) :
    rest.length ≤ uq.length := by
  induction uq with
  | nil => cases h
  | cons k ks ih =>
    rw [afterMatch] at h
    split at h
    · cases h; simp
    · exact (ih h).trans (by simp)

theorem length_drainRaw_le {n : Nat} {e : Byte} {raw : List RawEvent} {uq : List Nibble} {ef : Bool} {c : KeyCheck}
    (h : drainRaw (some n) e raw uq ef = some c) (hfit : uq.length ≤ n) : c.uq.length ≤ n := by
  induction raw generalizing uq ef with
  | nil => cases h; exact hfit
  | cons ev raw ih =>
    cases ev with
    | exit => exact ih h hfit
    | other => exact ih h hfit
    | key k =>
      rw [drainRaw] at h
      split at h
      · cases h; exact Nat.zero_le n
      · split at h
        · cases h
        · next hroom =>
          have hlt : uq.length < n := by simpa [queueIsFull] using hroom
          exact ih h (by simpa using hlt)

theorem length_checkIfPressed_le {n : Nat} {e : Byte} {s : State} {c : KeyCheck}
    (h : checkIfPressed (some n) e s = some c) (hfit : s.uq.length ≤ n) : c.uq.length ≤ n := by
  unfold checkIfPressed at h
  split at h
  · next hmatch => cases h; exact (length_afterMatch_le hmatch).trans hfit
  · exact length_drainRaw_le h hfit

/-! ## The shapes of change -/

/-- What a handler can do to the state it starts from (`exec_effect` says that it does nothing else): raise a fault, write
registers, timers or pixels, store bytes, move the pc, push or pop a return address, check a key or wait for one. -/
inductive Effect (s : State) : State → Prop
  | fault (f : Fault) : Effect s (s.raise f)
  | data {t : State}
      (h : t = { s with v := t.v, i := t.i, dt := t.dt, st := t.st, fb := t.fb, draws := t.draws }) : Effect s t
  | store (a : Nat) (bs : List Byte) : Effect s (s.storeBytes a bs)
  | jump (w : Word) (hw : w.toNat ≤ 0x10FE) : Effect s (s.setPc w)
  | skip (c : Bool) : Effect s (s.skipIf c)
  | push (aaa : Imm12) (hsp : s.sp ≠ 15) : Effect s (s.pushReturn.setPc (imm16 aaa))
  | pop (hsp : s.sp ≠ 0) : Effect s s.popReturn
  | keyCheck (e : Byte) (c : KeyCheck) (b : Bool) (hc : checkIfPressed s.params.uqCap e s = some c) :
      Effect s ((s.setInput c.uq c.raw c.exitFlag).skipIf b)
  | keyWait (x : Reg) : Effect s (s.waitKey x)

theorem skipOnKey_effect {wanted : Bool} {x : Reg} {s t : State} (h : skipOnKey wanted x s = .next t) : Effect s t := by
  obtain ⟨c, hc, rfl⟩ := skipOnKey_next h
  exact .keyCheck _ c _ hc

/-- The target of JP V0 is at most 0xFF + 0xFFF (R24, R144). -/
theorem jpV0_target_le (s : State) (aaa : Imm12) : (s.reg16 0 + imm16 aaa).toNat ≤ 0x10FE := by
  have hreg := (s.reg 0).isLt
  have haaa := aaa.isLt
  simp only [BitVec.toNat_add, State.reg16_toNat, imm16_toNat]
  omega

/-- Every instruction makes one of the changes of `Effect`. -/
theorem exec_effect {i : Instr} {s t : State} (h : exec i s = .next t) : Effect s t := by
  cases i
  case jp aaa =>
    cases h
    exact .jump _ (by have := aaa.isLt; rw [imm16_toNat]; omega)
  case jpV0 aaa => cases h; exact .jump _ (jpV0_target_le s aaa)
  case call aaa =>
    cases h
    split
    · exact .fault _
    · next hsp => exact .push aaa hsp
  case ret =>
    cases h
    split
    · exact .fault _
    · next hsp => exact .pop hsp
  case seImm | sneImm | seReg | sneReg => cases h; exact .skip _
  case skp | sknp => exact skipOnKey_effect h
  case ldVxK x => cases h; exact .keyWait x
  case ldB | ldMemVx =>
    cases h
    split
    · exact .store _ _
    · exact .fault _
  case drw =>
    cases h
    split
    · exact .data rfl
    · exact .fault _
  case ldVxMem =>
    cases h
    split
    · exact .data (by rw [State.loadRegs_eq])
    · exact .fault _
  case addReg | subReg | shr | subn | shl => cases h; exact .data (by rw [State.writeFlagged_eq])
  all_goals cases h; exact .data rfl

/-! ## The handler keeps the invariant -/

theorem slotBound_pushReturn {s : State} (hpc : s.pc.toNat ≤ 0x1000) (hslot : ∀ j, (s.slot j).toNat ≤ 0x1000) (j : Nibble) :
    (s.pushReturn.slot j).toNat ≤ 0x1000 := by
  rw [State.slot_pushReturn]
  split
  · exact hpc
  · exact hslot j

/-- A skip from an advanced pc goes at most two further (R24). -/
theorem skipIf_pc_le {s : State} (hpc : s.pc.toNat ≤ 0x1000) (c : Bool) : (s.skipIf c).pc.toNat ≤ 0x10FE := by
  rw [State.skipIf_pc]
  split
  · rw [BitVec.toNat_add]; simp; omega
  · omega

theorem machineInv_skipIf {s : State} (inv : MachineInv s) (hpc : s.pc.toNat ≤ 0x1000) (c : Bool) :
    MachineInv (s.skipIf c) := by
  have hskip := skipIf_pc_le hpc c
  rw [State.skipIf_eq] at hskip ⊢
  exact { inv with pcBound := hskip }

theorem machineInv_raise {s : State} (inv : MachineInv s) (hload : s.loadOpen = false) (f : Fault) :
    MachineInv (s.raise f) :=
  { inv with faultIffHalted := rfl, haltedLoadClosed := fun _ => hload }

theorem machineInv_storeBytes {s : State} (inv : MachineInv s) (a : Nat) (bs : List Byte) : MachineInv (s.storeBytes a bs) :=
  { inv with memCanonical := State.memWf_storeBytes a bs inv.memCanonical }

/-- A rewind from an advanced pc does not wrap. -/
theorem rewind_pc_le {s : State} (hlow : 2 ≤ s.pc.toNat) (hpc : s.pc.toNat ≤ 0x1000) : s.rewind.pc.toNat ≤ 0x10FE := by
  rw [State.rewind_pc, BitVec.toNat_sub_of_le (by simpa [BitVec.le_def] using hlow)]
  simp; omega

theorem Effect.params {s t : State} (h : Effect s t) : t.params = s.params := by
  cases h
  case data h => rw [h]
  case keyWait x => unfold State.waitKey; split <;> rfl
  all_goals simp

/-- A waiting core rewinds an advanced pc, or leaves it (R237). -/
theorem machineInv_waitKey {s : State} (inv : MachineInv s) (hlow : 2 ≤ s.pc.toNat) (hpc : s.pc.toNat ≤ 0x1000) (x : Reg) :
    MachineInv (s.waitKey x) := by
  have hback := rewind_pc_le hlow hpc
  unfold State.waitKey
  split
  · exact { inv with pcBound := hback }
  · exact { inv with }
  · exact { inv with pcBound := hback }
  · exact { inv with pcBound := hback }

/-- Every shape of change keeps the invariant, from an advanced pc (R122) and with `load` closed (log 3). -/
theorem Effect.machineInv {s t : State} (h : Effect s t) (inv : MachineInv s) (hlow : 2 ≤ s.pc.toNat)
    (hpc : s.pc.toNat ≤ 0x1000) (hload : s.loadOpen = false) : MachineInv t := by
  cases h with
  | fault f => exact machineInv_raise inv hload f
  | data h => rw [h]; exact { inv with }
  | store a bs => exact machineInv_storeBytes inv a bs
  | jump w hw => exact { inv with pcBound := hw }
  | skip c => exact machineInv_skipIf inv hpc c
  | push aaa hsp =>
    have haaa := aaa.isLt
    exact { inv with
      pcBound := by rw [State.setPc_pc, imm16_toNat]; omega
      slotBound := slotBound_pushReturn hpc inv.slotBound
      slot15 := by rw [State.setPc_slot, State.slot_pushReturn, if_neg hsp.symm, inv.slot15] }
  | pop hsp => exact { inv with pcBound := (inv.slotBound _).trans (by decide) }
  | keyCheck e c b hc =>
    have hset : MachineInv (s.setInput c.uq c.raw c.exitFlag) :=
      { inv with queueFits := fun n hn => length_checkIfPressed_le (hn ▸ hc) (inv.queueFits n hn) }
    exact machineInv_skipIf hset hpc b
  | keyWait x => exact machineInv_waitKey inv hlow hpc x

/-! ## The tick, the host's moves and the step -/

theorem machineInv_finishTick {s : State} (inv : MachineInv s) : MachineInv s.finishTick := by
  rw [State.finishTick_eq]
  split
  · exact inv
  · exact { inv with }

theorem machineInv_closeLoad {s : State} (inv : MachineInv s) : MachineInv s.closeLoad :=
  { inv with haltedLoadClosed := fun _ => rfl }

/-- The pc a handler sees is its instruction's address plus 2: the sum does not wrap (R122). -/
theorem advance_pc_toNat {s : State} (hpc : s.pc.toNat ≤ 0xFFE) : s.advance.pc.toNat = s.pc.toNat + 2 := by
  rw [State.advance_pc, BitVec.toNat_add]
  simp; omega

/-- The state a handler starts from has the invariant, an advanced pc and `load` closed. -/
theorem machineInv_handlerStart {s : State} (inv : MachineInv s) (hpc : s.pc.toNat ≤ 0xFFE) :
    MachineInv (handlerStart s) :=
  { machineInv_closeLoad inv with pcBound := (advance_pc_toNat hpc).trans_le (by omega) }

/-- Going from `s` to `t` keeps the invariant and the parameters. -/
def keepsInv (s t : State) : Prop := MachineInv s → MachineInv t ∧ t.params = s.params

theorem exec_keepsInv {i : Instr} {s u : State} (hpc : s.pc.toNat ≤ 0xFFE) (h : exec i (handlerStart s) = .next u) :
    keepsInv s u.finishTick := by
  intro inv
  have hstart : (handlerStart s).pc.toNat = s.pc.toNat + 2 := advance_pc_toNat hpc
  have heff := exec_effect h
  refine ⟨machineInv_finishTick (heff.machineInv (machineInv_handlerStart inv hpc) ?_ ?_ rfl), ?_⟩
  · omega
  · omega
  · rw [State.finishTick_params, heff.params]; rfl

theorem tick_keepsInv {s t : State} (h : tick s = .next t) : keepsInv s t := by
  intro inv
  rcases tick_cases h with ⟨-, rfl⟩ | ⟨-, -, rfl⟩ | ⟨-, hpc, ⟨e, -, rfl⟩ | ⟨i, u, -, hu, rfl⟩⟩
  · exact ⟨inv, rfl⟩
  · exact ⟨machineInv_raise (machineInv_closeLoad inv) rfl _, rfl⟩
  · exact ⟨machineInv_raise (machineInv_handlerStart inv hpc) rfl _, rfl⟩
  · exact exec_keepsInv hpc hu inv

theorem hostTurn_keepsInv {s t : State} (h : s.hostTurn = .next t) : keepsInv s t := by
  refine hostMoves_induction (P := keepsInv) ?trans ?reset ?load ?push ?timers ?rest h
  case trans =>
    intro s t u hst htu inv
    obtain ⟨inv', hp'⟩ := hst inv
    obtain ⟨inv'', hp''⟩ := htu inv'
    exact ⟨inv'', hp''.trans hp'⟩
  case reset => exact fun s inv => ⟨{ machineInv_resetWith inv.glyphA with }, rfl⟩
  case load =>
    intro image s t hload inv
    obtain ⟨-, -, rfl⟩ := State.load_next hload
    exact ⟨machineInv_closeLoad (machineInv_storeBytes inv _ _), rfl⟩
  case push => exact fun e s inv => ⟨{ inv with }, rfl⟩
  case timers => exact fun b s inv => ⟨{ inv with }, rfl⟩
  case rest => exact fun ms s inv => ⟨{ inv with }, rfl⟩

/-- Settles O57: the host's moves keep the invariant and the parameters, by induction over them, and so does the tick. -/
theorem everyStepKeepsTheInvariant : Obligations.EveryStepKeepsTheInvariant := by
  intro s t inv h
  obtain ⟨u, hturn, htick⟩ := step_cases h
  obtain ⟨inv', hparams⟩ := hostTurn_keepsInv hturn inv
  obtain ⟨inv'', hparams'⟩ := tick_keepsInv htick inv'
  exact ⟨inv'', hparams'.trans hparams⟩

end Sys2Proof.Safety
end

section
/-!
PROOFS. The flag-writing ALU instructions: every word of their rows, their results and flags as numbers, and the two writes in
either order of VF_ORDER (R161, R168 to R172).
-/

namespace Sys2Proof.Safety

open Sys2Proof.Machine

/-! ## Reading a row -/

/-- A row of the table reads every word of its pattern, if each row before it is told apart by a bit both masks cover (R94). -/
theorem readsAs_row {r : OpcodeRow} (k : Nat) (hk : opcodeRows[k]? = some r)
    (before : ∀ q ∈ opcodeRows.take k, q.mask &&& r.mask &&& (q.pattern ^^^ r.pattern) ≠ 0#16) :
    readsAs r.mask r.pattern r.build :=
  fun _ hw => decodeWord_row k hk (beq_iff_eq.2 hw) before

/-! ## Results and flags -/

theorem addFlag_eq (a b : Byte) : addFlag a b = if a.toNat + b.toNat > 255 then 1 else 0 := by
  simp [addFlag, flagByte]

theorem subFlag_eq (a b : Byte) : subFlag a b = if b.toNat ≤ a.toNat then 1 else 0 := by
  simp [subFlag, flagByte]

/-- The difference modulo 256 is the difference of bytes (R169). -/
theorem subResult_eq_sub (a b : Byte) : subResult a b = a - b := by
  apply BitVec.eq_of_toNat_eq
  rw [subResult_toNat, BitVec.toNat_sub]
  have hb := b.isLt
  congr 1
  omega

/-- Bit 0 is the remainder (R170). -/
theorem shrFlag_toNat (a : Byte) : (shrFlag a).toNat = a.toNat % 2 := by
  have hbit : a.getLsbD 0 = decide (a.toNat % 2 = 1) := by simp [BitVec.getLsbD]
  rw [shrFlag, hbit]
  rcases Nat.mod_two_eq_zero_or_one a.toNat with h | h <;> rw [h] <;> rfl

/-- Bit 7 is what does not fit after doubling (R172). -/
theorem shlFlag_toNat (a : Byte) : (shlFlag a).toNat = a.toNat / 128 := by
  have ha := a.isLt
  have hbit : a.getLsbD 7 = decide (a.toNat / 128 % 2 = 1) := by simp [BitVec.getLsbD, Nat.testBit_eq_decide_div_mod_eq]
  have hcase : a.toNat / 128 = 0 ∨ a.toNat / 128 = 1 := by omega
  rw [shlFlag, hbit]
  rcases hcase with h | h <;> rw [h] <;> rfl

/-! ## The two writes -/

/-- What a flag-writing ALU instruction leaves: the result in Vx and the flag in VF, each unless x = F and the other one is
written second; no fault is raised (R160, R161). -/
theorem writeFlagged_result_flag (s : State) (x : Reg) (result flag : Byte) :
    (x ≠ vf ∨ s.params.vfOrder = .flagThenResult → (s.writeFlagged x result flag).reg x = result) ∧
    (x ≠ vf ∨ s.params.vfOrder = .resultThenFlag → (s.writeFlagged x result flag).reg vf = flag) ∧
    (s.writeFlagged x result flag).halted = s.halted ∧ (s.writeFlagged x result flag).fault = s.fault :=
  ⟨State.reg_writeFlagged_result s x result flag, State.reg_writeFlagged_flag s x result flag,
    State.writeFlagged_halted s x result flag, State.writeFlagged_fault s x result flag⟩

/-- Settles O32: the two writes, with the sum and the carry as numbers. -/
theorem addSetsTheCarry : Obligations.AddSetsTheCarry := by
  refine ⟨readsAs_row 14 rfl (by decide), fun x y s => ?_⟩
  obtain ⟨hresult, hflag, hrest⟩ :=
    writeFlagged_result_flag s x (addResult (s.reg x) (s.reg y)) (addFlag (s.reg x) (s.reg y))
  exact ⟨_, rfl, fun h => by rw [hresult h, addResult_toNat], fun h => by rw [hflag h, addFlag_eq], hrest⟩

/-- Settles O33: the two writes, with the difference and not-borrow; SUBN is SUB with the operands exchanged. -/
theorem subtractionsSetNotBorrow : Obligations.SubtractionsSetNotBorrow := by
  refine ⟨readsAs_row 15 rfl (by decide), readsAs_row 17 rfl (by decide), fun x y s => ⟨?_, ?_⟩⟩
  · obtain ⟨hresult, hflag, hrest⟩ :=
      writeFlagged_result_flag s x (subResult (s.reg x) (s.reg y)) (subFlag (s.reg x) (s.reg y))
    exact ⟨_, rfl, fun h => by rw [hresult h, subResult_eq_sub], fun h => by rw [hflag h, subFlag_eq], hrest⟩
  · obtain ⟨hresult, hflag, hrest⟩ :=
      writeFlagged_result_flag s x (subResult (s.reg y) (s.reg x)) (subFlag (s.reg y) (s.reg x))
    exact ⟨_, rfl, fun h => by rw [hresult h, subResult_eq_sub], fun h => by rw [hflag h, subFlag_eq], hrest⟩

/-- Settles O34: the two writes, with the halved or doubled value and the bit shifted out; neither handler reads y. -/
theorem shiftsPutTheLostBitInTheFlag : Obligations.ShiftsPutTheLostBitInTheFlag := by
  refine ⟨readsAs_row 16 rfl (by decide), readsAs_row 18 rfl (by decide), fun x y s => ⟨?_, ?_⟩⟩
  · obtain ⟨hresult, hflag, hhalted, hfault⟩ := writeFlagged_result_flag s x (shrResult (s.reg x)) (shrFlag (s.reg x))
    exact ⟨_, rfl, fun h => by rw [hresult h, shrResult_toNat], fun h => by rw [hflag h, shrFlag_toNat], hhalted, hfault,
      fun _ => rfl⟩
  · obtain ⟨hresult, hflag, hhalted, hfault⟩ := writeFlagged_result_flag s x (shlResult (s.reg x)) (shlFlag (s.reg x))
    exact ⟨_, rfl, fun h => by rw [hresult h, shlResult_toNat], fun h => by rw [hflag h, shlFlag_toNat], hhalted, hfault,
      fun _ => rfl⟩

end Sys2Proof.Safety
end

section
/-!
PROOFS. The host's side: what its reset leaves (R290), its moves one by one (R38, R296), and what a host that does not reset
cannot undo (R36, R263).
-/

namespace Sys2Proof.Safety

open Sys2Proof.Machine

/-! ## Single moves -/

theorem sameExcept_hostReset (s : State) :
    sameExcept [.raw, .updateTimers, .host, .draws, .renderReqs] (State.resetWith s.params) s.hostReset := by
  intro p hp
  cases p
  case raw | updateTimers | host | draws | renderReqs => exact absurd (by decide) hp
  case mem | regs | stack => exact fun _ => rfl
  case fb => exact fun _ _ => rfl
  all_goals exact rfl

/-- Settles O15: the fields `hostReset` keeps stand in its definition, and the others are those of `resetWith`. -/
theorem hostResetRestoresTheCore : Obligations.HostResetRestoresTheCore :=
  fun s => ⟨sameExcept_hostReset s, rfl, rfl, rfl, rfl, rfl, rfl⟩

section
variable (s : State)

theorem sameExcept_closeLoad : sameExcept [.loadOpen] s s.closeLoad := by
  intro p hp; cases p <;> simp [samePart] at hp ⊢
theorem sameExcept_pushRaw (e : RawEvent) : sameExcept [.raw] s (s.pushRaw e) := by
  intro p hp; cases p <;> simp [samePart] at hp ⊢
theorem sameExcept_setUpdateTimers (b : Bool) : sameExcept [.updateTimers] s (s.setUpdateTimers b) := by
  intro p hp; cases p <;> simp [samePart] at hp ⊢
theorem sameExcept_setHost (ms : List HostMove) : sameExcept [.host] s (s.setHost ms) := by
  intro p hp; cases p <;> simp [samePart] at hp ⊢

/-- A load does not look at the announced moves. -/
theorem load_setHost (image : List Byte) (ns : List HostMove) :
    State.load image (s.setHost ns) = mapNext (State.setHost · ns) (State.load image s) := by
  simp only [State.load, apply_ite (mapNext _)]; rfl

end

/-! ## The moves one by one -/

/-- The moves are an argument of `hostMoves`: the announced list is overwritten at the end of the turn. -/
theorem hostMoves_setHost (ms ns : List HostMove) (s : State) : hostMoves ms (s.setHost ns) = hostMoves ms s := by
  induction ms generalizing s with
  | nil => rfl
  | cons m ms ih =>
    cases m with
    | reset => exact ih s.hostReset
    | push e => exact ih (s.pushRaw e)
    | tick b => rfl
    | load image =>
      rw [hostMoves, hostMoves, load_setHost]
      cases State.load image s with
      | next t => exact ih t
      | fault f => rfl
      | refused r => rfl

/-- A turn that comes to the turn of another state on the remaining moves makes the step that state's step. -/
theorem step_eq_of_hostMoves {s t : State} {ms : List HostMove} (h : hostMoves s.host s = hostMoves ms t) :
    step s = step (t.setHost ms) := by
  have hturn : s.hostTurn = (t.setHost ms).hostTurn := h.trans (hostMoves_setHost ms ms t).symm
  rw [step, step, hturn]

/-- A turn that answers leaves the step to the tick. -/
theorem step_of_hostTurn {s t : State} (h : s.hostTurn = .next t) : step s = tick t := by
  rw [step, h]

/-- Settles O7: each shape of the announced list through one equation of `hostMoves`. -/
theorem hostMovesPrecedeTheTick : Obligations.HostMovesPrecedeTheTick := by
  refine ⟨?idle, ?tick, ?push, ?reset, ?load, ?refused, ?pushRaw, ?timers, ?host⟩
  case idle => exact fun s h => step_of_hostTurn (State.hostTurn_idle h)
  case tick => exact fun s b ms h => step_of_hostTurn (by rw [State.hostTurn, h]; rfl)
  case push => exact fun s e ms h => step_eq_of_hostMoves (by rw [h]; rfl)
  case reset => exact fun s ms h => step_eq_of_hostMoves (by rw [h]; rfl)
  case load => exact fun s t image ms h hload => step_eq_of_hostMoves (by rw [h, hostMoves, hload])
  case refused => exact fun s image ms r h hload => by rw [step, State.hostTurn, h, hostMoves, hload]
  case pushRaw => exact fun s e => ⟨rfl, sameExcept_pushRaw s e⟩
  case timers => exact fun s b => ⟨rfl, sameExcept_setUpdateTimers s b⟩
  case host => exact fun s ms => ⟨rfl, sameExcept_setHost s ms⟩

/-! ## A host that does not reset -/

/-- Going from `s` to `t` changed nothing but what the host itself moves, and program memory if `load` was open. -/
def onlyHostMoved (s t : State) : Prop :=
  sameExcept [.mem, .loadOpen, .raw, .host, .updateTimers] s t ∧
  (s.loadOpen = false → sameExcept [.raw, .host, .updateTimers] s t)

theorem onlyHostMoved_of_sameExcept {s t : State} (h : sameExcept [.raw, .host, .updateTimers] s t) : onlyHostMoved s t :=
  ⟨h.mono (by simp), fun _ => h⟩

theorem onlyHostMoved.trans {s t u : State} (hst : onlyHostMoved s t) (htu : onlyHostMoved t u) : onlyHostMoved s u := by
  obtain ⟨hopen, hclosed⟩ := hst
  obtain ⟨hopen', hclosed'⟩ := htu
  refine ⟨hopen.trans hopen', fun hs => ?_⟩
  have ht : t.loadOpen = false := (hclosed hs .loadOpen (by decide)).trans hs
  exact (hclosed hs).trans (hclosed' ht)

theorem onlyHostMoved_load {image : List Byte} {s t : State} (h : State.load image s = .next t) : onlyHostMoved s t := by
  obtain ⟨hopen, -, rfl⟩ := State.load_next h
  refine ⟨?_, fun hclosed => absurd hopen (by simp [hclosed])⟩
  exact ((sameExcept_storeBytes s _ image).mono (by simp)).trans ((sameExcept_closeLoad _).mono (by simp))

/-- Every move but a reset is one of the host's own, and a load answers only while `load` is open. -/
theorem hostMoves_onlyHostMoved {ms : List HostMove} {s t : State} (hno : HostMove.reset ∉ ms)
    (h : hostMoves ms s = .next t) : onlyHostMoved s t := by
  have hrest (u : State) (ns : List HostMove) : onlyHostMoved u (u.setHost ns) :=
    onlyHostMoved_of_sameExcept ((sameExcept_setHost u ns).mono (by simp))
  induction ms generalizing s with
  | nil => cases h; exact hrest s []
  | cons m ms ih =>
    obtain ⟨hm, hms⟩ : HostMove.reset ≠ m ∧ HostMove.reset ∉ ms := by simpa using hno
    cases m with
    | reset => exact absurd rfl hm
    | push e => exact (onlyHostMoved_of_sameExcept ((sameExcept_pushRaw s e).mono (by simp))).trans (ih hms h)
    | tick b =>
      cases h
      exact (onlyHostMoved_of_sameExcept ((sameExcept_setUpdateTimers s b).mono (by simp))).trans (hrest _ ms)
    | load image =>
      rw [hostMoves] at h
      split at h
      · next u hu => exact (onlyHostMoved_load hu).trans (ih hms h)
      · cases h
      · cases h

/-! ## The exit flag (R36) -/

theorem drainRaw_keeps_exitFlag {cap : Option Nat} {e : Byte} {raw : List RawEvent} {uq : List Nibble} {c : KeyCheck}
    (h : drainRaw cap e raw uq true = some c) : c.exitFlag = true := by
  induction raw generalizing uq with
  | nil => cases h; rfl
  | cons ev raw ih =>
    cases ev with
    | exit | other => exact ih h
    | key k =>
      rw [drainRaw] at h
      split at h
      · cases h; rfl
      · split at h
        · cases h
        · exact ih h

theorem checkIfPressed_keeps_exitFlag {cap : Option Nat} {e : Byte} {s : State} {c : KeyCheck}
    (h : checkIfPressed cap e s = some c) (hexit : s.exitFlag = true) : c.exitFlag = true := by
  unfold checkIfPressed at h
  split at h
  · cases h; exact hexit
  · rw [hexit] at h; exact drainRaw_keeps_exitFlag h

theorem waitKey_keeps_exitFlag {s : State} (hexit : s.exitFlag = true) (x : Reg) : (s.waitKey x).exitFlag = true := by
  unfold State.waitKey
  split <;> simp [hexit]

theorem Effect.exitFlag {s t : State} (h : Effect s t) (hexit : s.exitFlag = true) : t.exitFlag = true := by
  cases h with
  | data h => rw [h]; exact hexit
  | keyCheck e c b hc => simpa using checkIfPressed_keeps_exitFlag hc hexit
  | keyWait x => exact waitKey_keeps_exitFlag hexit x
  | skip c => simpa using hexit
  | fault | store | jump | push | pop => exact hexit

theorem tick_keeps_exitFlag {s t : State} (h : tick s = .next t) (hexit : s.exitFlag = true) : t.exitFlag = true := by
  rcases tick_cases h with ⟨-, rfl⟩ | ⟨-, -, rfl⟩ | ⟨-, -, ⟨e, -, rfl⟩ | ⟨i, u, -, hu, rfl⟩⟩
  · exact hexit
  · exact hexit
  · exact hexit
  · rw [State.finishTick_exitFlag]
    exact (exec_effect hu).exitFlag hexit

/-- Settles O58: the host's turn moves only what is the host's, no tick lowers the exit flag, and a halted one does
nothing. -/
theorem exitFlagAndHaltAreSticky : Obligations.ExitFlagAndHaltAreSticky := by
  intro s t hno h
  obtain ⟨u, hturn, htick⟩ := step_cases h
  obtain ⟨hopen, hclosed⟩ := hostMoves_onlyHostMoved hno hturn
  refine ⟨fun hexit => ?_, fun hhalted hload => ?_⟩
  · exact tick_keeps_exitFlag htick ((hopen .exitFlag (by decide)).trans hexit)
  · have hu : u.halted = true := (hopen .halted (by decide)).trans hhalted
    have ht : tick u = .next u := if_pos hu
    obtain rfl : u = t := by rw [ht] at htick; cases htick; rfl
    exact hclosed hload

end Sys2Proof.Safety
end

section
/-!
PROOFS. Memory is canonical: what it reads determines the list (log 25).
-/

namespace Sys2Proof.Machine

variable {font : Font}

theorem Memory.wfFrom_cons {lo k : Nat} {b : Byte} {m : Memory} :
    Memory.wfFrom font lo ((k, b) :: m) = true ↔
      lo ≤ k ∧ k < Config.memSize ∧ b ≠ Config.resetByte font k ∧ Memory.wfFrom font (k + 1) m = true := by
  simp [Memory.wfFrom, and_assoc]

theorem Memory.read_cons_self (k : Nat) (b : Byte) (m : Memory) : Memory.read font ((k, b) :: m) k = b := if_pos rfl

theorem Memory.read_cons_ne {k a : Nat} (b : Byte) (m : Memory) (h : a ≠ k) :
    Memory.read font ((k, b) :: m) a = Memory.read font m a := if_neg h.symm

/-- The first cell of a canonical list shows: a canonical list that reads the same starts no later. -/
theorem Memory.le_head_of_read_eq {m n : Memory} {lo lo' k : Nat} {b : Byte}
    (hm : Memory.wfFrom font lo ((k, b) :: m) = true) (hn : Memory.wfFrom font lo' n = true)
    (h : Memory.read font ((k, b) :: m) k = Memory.read font n k) : lo' ≤ k := by
  obtain ⟨-, -, hb, -⟩ := Memory.wfFrom_cons.1 hm
  by_contra hlt
  rw [Memory.read_cons_self, Memory.read_of_wfFrom_lt hn (by omega)] at h
  exact hb h

/-- Lists that start at the same address and read the same have tails that read the same. -/
theorem Memory.read_tail_eq {m n : Memory} {k : Nat} {b c : Byte} (hm : Memory.wfFrom font (k + 1) m = true)
    (hn : Memory.wfFrom font (k + 1) n = true)
    (h : ∀ a, Memory.read font ((k, b) :: m) a = Memory.read font ((k, c) :: n) a) (a : Nat) :
    Memory.read font m a = Memory.read font n a := by
  by_cases ha : a = k
  · rw [Memory.read_of_wfFrom_lt hm (by omega), Memory.read_of_wfFrom_lt hn (by omega)]
  · simpa only [Memory.read_cons_ne _ _ ha] using h a

theorem Memory.eq_of_read_eq {m n : Memory} {lo : Nat} (hm : Memory.wfFrom font lo m = true)
    (hn : Memory.wfFrom font lo n = true) (h : ∀ a, Memory.read font m a = Memory.read font n a) : m = n := by
  induction m generalizing n lo with
  | nil =>
    cases n with
    | nil => rfl
    | cons cell n =>
      obtain ⟨k, c⟩ := cell
      have hnil : Memory.wfFrom font (k + 1) [] = true := rfl
      exact absurd (Memory.le_head_of_read_eq hn hnil (h k).symm) (Nat.not_succ_le_self k)
  | cons cell m ih =>
    obtain ⟨k, b⟩ := cell
    cases n with
    | nil =>
      have hnil : Memory.wfFrom font (k + 1) [] = true := rfl
      exact absurd (Memory.le_head_of_read_eq hm hnil (h k)) (Nat.not_succ_le_self k)
    | cons cell n =>
      obtain ⟨k', c⟩ := cell
      obtain ⟨-, hk, hb, hm'⟩ := Memory.wfFrom_cons.1 hm
      obtain ⟨-, hk', hc, hn'⟩ := Memory.wfFrom_cons.1 hn
      have hle : k' ≤ k := Memory.le_head_of_read_eq hm (Memory.wfFrom_cons.2 ⟨le_rfl, hk', hc, hn'⟩) (h k)
      have hge : k ≤ k' := Memory.le_head_of_read_eq hn (Memory.wfFrom_cons.2 ⟨le_rfl, hk, hb, hm'⟩) (h k').symm
      obtain rfl : k = k' := le_antisymm hge hle
      have hbyte : b = c := by simpa only [Memory.read_cons_self] using h k
      rw [hbyte, ih hm' hn' (Memory.read_tail_eq hm' hn' h)]

end Sys2Proof.Machine

namespace Sys2Proof.Safety

open Sys2Proof.Machine

/-- Settles O43, by induction on one list against the other. -/
theorem equalReadsMeanEqualMemory : Obligations.EqualReadsMeanEqualMemory :=
  fun _ _ _ hm hn h => Memory.eq_of_read_eq hm hn h

end Sys2Proof.Safety
end

section
/-!
PROOFS. Stack slots at or above SP cannot be observed (R27, U17): every operation of a step commutes with a change of the
whole stack, except the pop of RET, which reads a slot below SP, and the host's reset, which forgets the stack.
-/

namespace Sys2Proof.Machine

/-- The state with another call stack and everything else as it was: `sameLiveState_iff` says which of these a statement
speaks of. -/
def State.setStack (s : State) (k : Vector Word 16) : State := { s with stack := k }

section
variable (s : State) (k : Vector Word 16)

@[simp] theorem State.setStack_params : (s.setStack k).params = s.params := rfl
@[simp] theorem State.setStack_raw : (s.setStack k).raw = s.raw := rfl
@[simp] theorem State.setStack_sp : (s.setStack k).sp = s.sp := rfl

theorem State.skipIf_setStack (c : Bool) : (s.setStack k).skipIf c = (s.skipIf c).setStack k := by
  rw [State.skipIf_eq, State.skipIf_eq]; rfl

theorem State.loadRegs_setStack (a n : Nat) : (s.setStack k).loadRegs a n = (s.loadRegs a n).setStack k := by
  induction n with
  | zero => rfl
  | succ n ih => rw [State.loadRegs, State.loadRegs, ih]; rfl

theorem State.writeFlagged_setStack (x : Reg) (b c : Byte) :
    (s.setStack k).writeFlagged x b c = (s.writeFlagged x b c).setStack k := by
  simp only [State.writeFlagged, State.setStack_params]
  cases s.params.vfOrder <;> rfl

theorem State.waitKey_setStack (x : Reg) : (s.setStack k).waitKey x = (s.waitKey x).setStack k := by
  simp only [State.waitKey, State.setStack_raw]
  split <;> rfl

theorem State.finishTick_setStack : (s.setStack k).finishTick = s.finishTick.setStack k := by
  rw [State.finishTick_eq, State.finishTick_eq, apply_ite (State.setStack · k)]; rfl

end

end Sys2Proof.Machine

namespace Sys2Proof.Safety

open Sys2Proof.Machine

/-! ## Agreement below SP -/

theorem sameLiveState_iff {s s' : State} :
    sameLiveState s s' ↔ ∃ k, s' = s.setStack k ∧ ∀ j : Nibble, j.toNat < s.sp.toNat → (s.setStack k).slot j = s.slot j := by
  constructor
  · rintro ⟨heq, hlive⟩
    exact ⟨s'.stack, heq, heq ▸ hlive⟩
  · rintro ⟨k, rfl, hlive⟩
    exact ⟨rfl, hlive⟩

theorem sameLiveState_refl (s : State) : sameLiveState s s := ⟨rfl, fun _ _ => rfl⟩

/-- What a run of `f` leaves cannot tell two states apart that differ in dead stack slots only. -/
def ignoresDeadSlots (f : State → Host.Outcome State Fault Refusal) : Prop :=
  ∀ s s' t : State, sameLiveState s s' → f s = .next t → ∃ t', f s' = .next t' ∧ sameLiveState t t'

/-- An operation that works beside the stack: it does the same on any stack and moves neither a slot nor SP. -/
theorem ignoresDeadSlots_of_frame {f : State → Host.Outcome State Fault Refusal}
    (hcomm : ∀ s k, f (s.setStack k) = mapNext (State.setStack · k) (f s))
    (hframe : ∀ s t, f s = .next t → samePart .sp s t ∧ samePart .stack s t) : ignoresDeadSlots f := by
  intro s s' t hlive h
  obtain ⟨k, rfl, hslot⟩ := sameLiveState_iff.1 hlive
  obtain ⟨hsp, hstack⟩ := hframe s t h
  refine ⟨t.setStack k, by rw [hcomm, h]; rfl, rfl, fun j hj => ?_⟩
  rw [hsp] at hj
  exact (hslot j hj).trans (hstack j).symm

/-! ## The stack instructions (R142, R143) -/

/-- A push makes the slot at SP live and fills it with the pc (R142). -/
theorem sameLiveState_pushReturn {s s' : State} (h : sameLiveState s s') :
    sameLiveState s.pushReturn s'.pushReturn := by
  obtain ⟨k, rfl, hslot⟩ := sameLiveState_iff.1 h
  refine ⟨rfl, fun j hj => ?_⟩
  rw [State.slot_pushReturn, State.slot_pushReturn, State.setStack_sp]
  by_cases hj' : j = s.sp
  · rw [if_pos hj', if_pos hj']; rfl
  · rw [if_neg hj', if_neg hj']
    refine hslot j ?_
    rw [State.pushReturn_sp] at hj
    bv_omega

/-- A pop reads a live slot (R143). -/
theorem sameLiveState_popReturn {s s' : State} (h : sameLiveState s s') (hsp : s.sp ≠ 0) :
    sameLiveState s.popReturn s'.popReturn := by
  obtain ⟨k, rfl, hslot⟩ := sameLiveState_iff.1 h
  have htop : (s.setStack k).slot (s.sp - 1) = s.slot (s.sp - 1) := hslot _ (by bv_omega)
  refine ⟨?_, fun j hj => hslot j ?_⟩
  · simp only [State.popReturn, State.setStack_sp, htop]; rfl
  · rw [State.popReturn_sp] at hj
    bv_omega

theorem execCall_ignoresDeadSlots (aaa : Imm12) : ignoresDeadSlots (execCall aaa) := by
  intro s s' t hlive h
  obtain ⟨k, rfl, hslot⟩ := sameLiveState_iff.1 hlive
  cases h
  refine ⟨_, rfl, ?_⟩
  rw [State.setStack_sp]
  by_cases hsp : s.sp = 15
  · rw [if_pos hsp, if_pos hsp]
    exact ⟨rfl, hslot⟩
  · rw [if_neg hsp, if_neg hsp]
    obtain ⟨hpush, hslot'⟩ := sameLiveState_pushReturn hlive
    exact ⟨rfl, hslot'⟩

theorem execRet_ignoresDeadSlots : ignoresDeadSlots execRet := by
  intro s s' t hlive h
  obtain ⟨k, rfl, hslot⟩ := sameLiveState_iff.1 hlive
  cases h
  refine ⟨_, rfl, ?_⟩
  rw [State.setStack_sp]
  by_cases hsp : s.sp = 0
  · rw [if_pos hsp, if_pos hsp]
    exact ⟨rfl, hslot⟩
  · rw [if_neg hsp, if_neg hsp]
    exact sameLiveState_popReturn hlive hsp

/-! ## Every other instruction -/

theorem skipOnKey_setStack (wanted : Bool) (x : Reg) (s : State) (k : Vector Word 16) :
    skipOnKey wanted x (s.setStack k) = mapNext (State.setStack · k) (skipOnKey wanted x s) := by
  rcases skipOnKey_cases wanted x s with ⟨c, hc, h⟩ | ⟨hc, -, h⟩
  · have hc' : checkIfPressed (s.setStack k).params.uqCap ((s.setStack k).reg x) (s.setStack k) = some c := hc
    rw [h, skipOnKey, hc']
    exact congrArg Host.Outcome.next (State.skipIf_setStack (s.setInput c.uq c.raw c.exitFlag) k _)
  · have hc' : checkIfPressed (s.setStack k).params.uqCap ((s.setStack k).reg x) (s.setStack k) = none := hc
    rw [h, skipOnKey, hc']
    rfl

/-- A choice between two states, both seen through the same change of the stack. -/
theorem next_ite_setStack {p : Prop} [Decidable p] {a b a' b' : State} {k : Vector Word 16} (ha : a' = a.setStack k)
    (hb : b' = b.setStack k) :
    (.next (if p then a' else b') : Host.Outcome State Fault Refusal) =
      mapNext (State.setStack · k) (.next (if p then a else b)) := by
  rw [ha, hb]; split <;> rfl

/-- An instruction that may not move SP works beside the stack. -/
theorem exec_setStack {i : Instr} (hsp : Part.sp ∉ mayWrite i) (s : State) (k : Vector Word 16) :
    exec i (s.setStack k) = mapNext (State.setStack · k) (exec i s) := by
  cases i
  case call | ret => exact absurd (by simp [mayWrite]) hsp
  case seImm | sneImm | seReg | sneReg => exact congrArg Host.Outcome.next (State.skipIf_setStack s k _)
  case addReg | subReg | shr | subn | shl => exact congrArg Host.Outcome.next (State.writeFlagged_setStack s k _ _ _)
  case skp | sknp => exact skipOnKey_setStack _ _ s k
  case ldVxK x => exact congrArg Host.Outcome.next (State.waitKey_setStack s k x)
  case drw | ldB | ldMemVx => exact next_ite_setStack rfl rfl
  case ldVxMem => exact next_ite_setStack (State.loadRegs_setStack s k _ _) rfl
  all_goals rfl

theorem exec_ignoresDeadSlots (i : Instr) : ignoresDeadSlots (exec i) := by
  by_cases hsp : Part.sp ∈ mayWrite i
  · cases i
    case call aaa => exact execCall_ignoresDeadSlots aaa
    case ret => exact execRet_ignoresDeadSlots
    all_goals simp [mayWrite] at hsp
  · have hstack : Part.stack ∉ mayWrite i := by cases i <;> simp [mayWrite] at hsp ⊢
    refine ignoresDeadSlots_of_frame (exec_setStack hsp) fun s t h => ?_
    obtain ⟨hframe, -, -⟩ := exec_keepsFrame h
    exact ⟨hframe .sp hsp, hframe .stack hstack⟩

/-! ## The tick, the host's moves and the step -/

theorem sameLiveState_finishTick {s s' : State} (h : sameLiveState s s') : sameLiveState s.finishTick s'.finishTick := by
  obtain ⟨k, rfl, hslot⟩ := sameLiveState_iff.1 h
  rw [State.finishTick_setStack]
  refine ⟨rfl, fun j hj => ?_⟩
  rw [State.finishTick_sp] at hj
  exact (hslot j hj).trans (State.finishTick_slot s j).symm

theorem runWord_ignoresDeadSlots (w : Word) : ignoresDeadSlots (runWord w) := by
  intro s s' t hlive h
  unfold runWord at h ⊢
  cases hw : decodeWord w with
  | error e =>
    obtain ⟨k, rfl, hslot⟩ := sameLiveState_iff.1 hlive
    rw [hw] at h
    cases h
    exact ⟨_, rfl, rfl, hslot⟩
  | ok i =>
    simp only [hw] at h
    split at h
    · next u hu =>
      cases h
      obtain ⟨u', hu', hlive'⟩ := exec_ignoresDeadSlots i s s' u hlive hu
      exact ⟨_, by simp only [hu'], sameLiveState_finishTick hlive'⟩
    · cases h
    · cases h

theorem tick_ignoresDeadSlots : ignoresDeadSlots tick := by
  intro s s' t hlive h
  obtain ⟨k, rfl, hslot⟩ := sameLiveState_iff.1 hlive
  unfold tick at h ⊢
  split at h
  · next hh =>
    cases h
    exact ⟨_, if_pos hh, hlive⟩
  · next hh =>
    split at h
    · next hp =>
      cases h
      exact ⟨_, (if_neg hh).trans (if_pos hp), rfl, hslot⟩
    · next hp =>
      obtain ⟨t', ht', hlive'⟩ :=
        runWord_ignoresDeadSlots _ s.closeLoad.advance (s.setStack k).closeLoad.advance t ⟨rfl, hslot⟩ h
      exact ⟨t', (if_neg hh).trans ((if_neg hp).trans ht'), hlive'⟩

theorem load_ignoresDeadSlots (image : List Byte) : ignoresDeadSlots (State.load image) := by
  refine ignoresDeadSlots_of_frame (fun s k => ?_) fun s t h => ?_
  · simp only [State.load, apply_ite (mapNext _)]; rfl
  · obtain ⟨-, -, rfl⟩ := State.load_next h
    exact ⟨rfl, fun _ => rfl⟩

/-- The host's moves do not look at the stack, and its reset makes the two states one. -/
theorem hostMoves_ignoresDeadSlots (ms : List HostMove) : ignoresDeadSlots (hostMoves ms) := by
  intro s s' t hlive h
  induction ms generalizing s s' with
  | nil =>
    obtain ⟨k, rfl, hslot⟩ := sameLiveState_iff.1 hlive
    cases h
    exact ⟨_, rfl, rfl, hslot⟩
  | cons m ms ih =>
    obtain ⟨k, rfl, hslot⟩ := sameLiveState_iff.1 hlive
    cases m with
    | reset => exact ⟨t, h, sameLiveState_refl t⟩
    | push e => exact ih (s.pushRaw e) _ ⟨rfl, hslot⟩ h
    | tick b => cases h; exact ⟨_, rfl, rfl, hslot⟩
    | load image =>
      rw [hostMoves] at h ⊢
      split at h
      · next u hu =>
        obtain ⟨u', hu', hlive'⟩ := load_ignoresDeadSlots image s _ u hlive hu
        rw [hu']
        exact ih u u' hlive' h
      · cases h
      · cases h

/-- Settles O60: the host's turn, then the tick, neither of which can tell the two states apart. -/
theorem deadStackSlotsAreUnobservable : Obligations.DeadStackSlotsAreUnobservable := by
  intro s s' t hlive h
  obtain ⟨u, hturn, htick⟩ := step_cases h
  have hhost : s'.host = s.host := by rw [hlive.1]
  obtain ⟨u', hturn', hlive'⟩ := hostMoves_ignoresDeadSlots s.host s s' u hlive hturn
  obtain ⟨t', htick', hlive''⟩ := tick_ignoresDeadSlots u u' t hlive' htick
  exact ⟨t', by rw [step, State.hostTurn, hhost, hturn']; exact htick', hlive''⟩

end Sys2Proof.Safety
end

section
/-!
PROOFS. Bytes of memory as the operations meet them: the range check of the memory instructions (R66, R67, R195), the block
Fx55 stores (R198), the word a fetch sees (R62, R121), and the first fetch after reset and load (R291, R292).
-/

namespace Sys2Proof.Safety

open Sys2Proof.Machine

/-! ## The range check -/

/-- The check looks at the highest effective address, if there is one (R67). -/
theorem inRange_iff_highest (base n : Nat) : inRange base n = true ↔ n = 0 ∨ base + n - 1 ≤ 0xFFF := by
  rw [inRange_iff]; omega

theorem inRange_blockLength (base : Nat) (x : Reg) : inRange base (blockLength x) = true ↔ base + x.toNat ≤ 0xFFF := by
  rw [inRange_iff, blockLength]; omega

/-- A handler's range check over the `n` bytes at I: `u` when they lie in memory, else the fault of R195. -/
def rangeChecked (s : State) (n : Nat) (u : State) : Host.Outcome State Fault Refusal :=
  .next (if inRange s.base n then u else s.raise s.rangeFault)

section
variable (s : State) (x y : Reg)

theorem exec_drw_eq (n : Nibble) : exec (.drw x y n) s =
    rangeChecked s n.toNat (s.draw (s.reg x).toNat (s.reg y).toNat (s.readBytes s.base n.toNat)) := rfl

theorem exec_ldB_eq : exec (.ldB x) s = rangeChecked s 3 (s.storeBytes s.base (decimalDigits (s.reg x))) := rfl

theorem exec_ldMemVx_eq :
    exec (.ldMemVx x) s = rangeChecked s (blockLength x) (s.storeBytes s.base (s.regBlock x)) := rfl

theorem exec_ldVxMem_eq :
    exec (.ldVxMem x) s = rangeChecked s (blockLength x) (s.loadRegs s.base (blockLength x)) := rfl

end

theorem rangeChecked_inside {s u : State} {n : Nat} (h : inRange s.base n = true) : rangeChecked s n u = .next u := by
  rw [rangeChecked, if_pos h]

theorem rangeChecked_outside {s u : State} {n : Nat} (h : ¬ inRange s.base n = true) :
    rangeChecked s n u = .next (s.raise s.rangeFault) := by
  rw [rangeChecked, if_neg h]

/-- A failed check raises the lowest bad address and does nothing else (R195, R262). -/
theorem rangeChecked_faults {s u : State} {n : Nat} (h : ¬ inRange s.base n = true) :
    ∃ t, rangeChecked s n u = .next t ∧ t.halted = true ∧
      t.fault = some (.addressOutOfRange (max s.i.toNat 0x1000)) ∧ sameExcept [.halted, .fault] s t :=
  ⟨_, rangeChecked_outside h, rfl, rfl, sameExcept_raise s _⟩

/-- A check that succeeds leaves it to what the instruction does whether the core halts. -/
theorem rangeChecked_raises_nothing {s u : State} {n : Nat} (h : inRange s.base n = true) (hhalted : u.halted = s.halted)
    (hfault : u.fault = s.fault) : ∃ t, rangeChecked s n u = .next t ∧ t.halted = s.halted ∧ t.fault = s.fault :=
  ⟨u, rangeChecked_inside h, hhalted, hfault⟩

/-- Settles O20: each of the four handlers is one range check, and what it does inside the range raises nothing. -/
theorem memoryInstructionsFaultPastTheEnd : Obligations.MemoryInstructionsFaultPastTheEnd := by
  refine ⟨?outside, ?inside⟩
  case outside =>
    rintro i s (⟨x, y, n, rfl, hn, hlast⟩ | ⟨x, rfl, hlast⟩ | ⟨x, rfl, hlast⟩ | ⟨x, rfl, hlast⟩)
    · rw [exec_drw_eq]
      exact rangeChecked_faults (by rw [inRange_iff_highest, State.base]; omega)
    · rw [exec_ldB_eq]
      exact rangeChecked_faults (by rw [inRange_iff_highest, State.base]; omega)
    · rw [exec_ldMemVx_eq]
      exact rangeChecked_faults (by rwa [inRange_blockLength, not_le])
    · rw [exec_ldVxMem_eq]
      exact rangeChecked_faults (by rwa [inRange_blockLength, not_le])
  case inside =>
    rintro i s (⟨x, y, n, rfl, hlast⟩ | ⟨x, rfl, hlast⟩ | ⟨x, rfl, hlast⟩ | ⟨x, rfl, hlast⟩)
    · rw [exec_drw_eq]
      exact rangeChecked_raises_nothing ((inRange_iff_highest _ _).2 hlast) (State.draw_halted ..) (State.draw_fault ..)
    · rw [exec_ldB_eq]
      exact rangeChecked_raises_nothing ((inRange_iff_highest _ _).2 (.inr hlast)) rfl rfl
    · rw [exec_ldMemVx_eq]
      exact rangeChecked_raises_nothing ((inRange_blockLength _ x).2 hlast) rfl rfl
    · rw [exec_ldVxMem_eq]
      exact rangeChecked_raises_nothing ((inRange_blockLength _ x).2 hlast) (State.loadRegs_halted ..)
        (State.loadRegs_fault ..)

/-! ## Stored bytes are fetched -/

/-- The fetched word as a number: the byte at the pc is the high one (R62). -/
theorem fetchWord_toNat (s : State) :
    s.fetchWord.toNat = (s.read s.pc.toNat).toNat * 256 + (s.read (s.pc.toNat + 1)).toNat :=
  wordOfBytes_toNat _ _

/-- After Fx55 the register with number `r` stands at I + r (R198). -/
theorem read_storeRegBlock {s : State} {x r : Reg} (hm : s.memWf = true) (hlast : s.base + x.toNat ≤ 0xFFF)
    (hr : r.toNat ≤ x.toNat) : (s.storeBytes s.base (s.regBlock x)).read (s.base + r.toNat) = s.reg r := by
  have hk : r.toNat < (s.regBlock x).length := by rw [State.regBlock_length, blockLength]; omega
  have hfits : s.base + (s.regBlock x).length ≤ Config.memSize := by
    rw [State.regBlock_length, blockLength, Config.memSize]; omega
  rw [State.read_storeBytes_inside hm _ _ hk hfits, State.regBlock_getElem, BitVec.ofNat_toNat, BitVec.setWidth_eq]

/-- Settles O42: the two bytes the fetch reads are two neighbours of the stored block. -/
theorem storedBytesAreFetched : Obligations.StoredBytesAreFetched := by
  intro x r q s hm hlast hqr hq hpc
  refine ⟨s.storeBytes s.base (s.regBlock x), ?_, rfl, ?_⟩
  · rw [exec_ldMemVx_eq, rangeChecked_inside ((inRange_blockLength _ x).2 hlast)]
  · have hhigh : s.pc.toNat = s.base + r.toNat := hpc
    have hlow : s.pc.toNat + 1 = s.base + q.toNat := by rw [hhigh, hqr, Nat.add_assoc]
    rw [fetchWord_toNat, State.storeBytes_pc, hlow, hhigh, read_storeRegBlock hm hlast (by omega),
      read_storeRegBlock hm hlast hq]

/-! ## The first fetch -/

/-- A load in its place and of a length that fits is made (R293). -/
theorem load_answers {s : State} {image : List Byte} (hopen : s.loadOpen = true) (hlen : image.length ≤ Config.progMax) :
    State.load image s = .next (s.storeBytes Config.progBase image).closeLoad := by
  rw [State.load, hopen, if_neg (by decide), if_neg (Nat.not_lt.2 hlen)]

/-- An image that fits is read back from 0x200 on (R293). -/
theorem read_storeImage {s : State} {image : List Byte} (hm : s.memWf = true) (hlen : image.length ≤ Config.progMax)
    {k : Nat} (hk : k < image.length) : (s.storeBytes Config.progBase image).read (Config.progBase + k) = image[k] :=
  State.read_storeBytes_inside hm _ _ hk (Nat.add_le_add_left hlen Config.progBase)

/-- A running core with its pc inside memory runs the fetched word (R121, R122). -/
theorem tick_of_fetches {s : State} (h : fetches s) : tick s = runWord s.fetchWord (handlerStart s) := by
  obtain ⟨hrun, hpc⟩ := h
  rw [tick, hrun, if_neg Bool.false_ne_true, if_neg (Nat.not_lt.2 hpc)]; rfl

/-- The core as the first tick finds it after reset, the load of `image` and the tick command with argument `b`. -/
def firstTickState (p : Params) (image : List Byte) (b : Bool) (ms : List HostMove) : State :=
  ((((State.resetWith p).storeBytes Config.progBase image).closeLoad).setUpdateTimers b).setHost ms

theorem hostTurn_load_tick (p : Params) {image : List Byte} (b : Bool) (ms : List HostMove)
    (hlen : image.length ≤ Config.progMax) :
    ((State.resetWith p).setHost (.load image :: .tick b :: ms)).hostTurn = .next (firstTickState p image b ms) := by
  rw [State.hostTurn, State.setHost_host, hostMoves_setHost, hostMoves, load_answers rfl hlen]; rfl

theorem firstTickState_read (p : Params) {image : List Byte} (b : Bool) (ms : List HostMove)
    (hlen : image.length ≤ Config.progMax) {k : Nat} (hk : k < image.length) :
    (firstTickState p image b ms).read (Config.progBase + k) = image[k] :=
  read_storeImage (s := State.resetWith p) rfl hlen hk

theorem firstTickState_fetches (p : Params) (image : List Byte) (b : Bool) (ms : List HostMove) :
    fetches (firstTickState p image b ms) :=
  ⟨rfl, show (0x200 : Word).toNat ≤ 0xFFE by decide⟩

/-- Settles O17: the image lies where the reset pc points, so the first fetch reads its first two bytes. -/
theorem firstInstructionIsAtTheProgramBase : Obligations.FirstInstructionIsAtTheProgramBase := by
  intro p image b0 b1 b ms hlen
  have hmax : (b0 :: b1 :: image).length ≤ Config.progMax := hlen
  set t := firstTickState p (b0 :: b1 :: image) b ms
  have hpc : t.pc.toNat = 0x200 := rfl
  have hhigh : t.read 0x200 = b0 := firstTickState_read p b ms hmax (k := 0) (by simp)
  have hlow : t.read (0x200 + 1) = b1 := firstTickState_read p b ms hmax (k := 1) (by simp)
  have hword : t.fetchWord.toNat = b0.toNat * 256 + b1.toNat := by rw [fetchWord_toNat, hpc, hhigh, hlow]
  exact ⟨_, hostTurn_load_tick p b ms hmax, rfl, rfl, rfl, hword, tick_of_fetches (firstTickState_fetches p _ b ms)⟩

end Sys2Proof.Safety
end

section
/-!
PROOFS. The opcode table (R94, R96): which row decides, the round trips between words and instructions, and the illegal words
(R97) with the fault they raise (R124, R262).
-/

namespace Sys2Proof.Safety

open Sys2Proof.Machine

/-! ## What a row tests -/

@[simp] theorem yField_of_kkField (w : Word) : (kkField w).extractLsb' 4 4 = yField w := by
  simp [kkField, yField]

@[simp] theorem nField_of_kkField (w : Word) : (kkField w).extractLsb' 0 4 = nField w := by
  simp [kkField, nField]

theorem kkField_eq_iff {w p : Word} : kkField w = kkField p ↔ yField w = yField p ∧ nField w = nField p := by
  constructor
  · intro h
    rw [← yField_of_kkField, ← nField_of_kkField, h, yField_of_kkField, nField_of_kkField]
    exact ⟨rfl, rfl⟩
  · rintro ⟨hy, hn⟩
    rw [kkField_eq, kkField_eq, hy, hn]

section
variable {w : Word} {op n : Nibble} {kk : Byte} {b : Word → Instr}

theorem rowMatches_word_iff {p : Word} : rowMatches w ⟨0xFFFF, p, b⟩ = true ↔ w = p := by
  rw [rowMatches_FFFF_eq, beq_iff_eq]

theorem rowMatches_op_iff : rowMatches w ⟨0xF000, encodeR op 0 0 0, b⟩ = true ↔ opField w = op := by
  simp [rowMatches, and_F000_eq_iff]

theorem rowMatches_op_n_iff :
    rowMatches w ⟨0xF00F, encodeR op 0 0 n, b⟩ = true ↔ opField w = op ∧ nField w = n := by
  simp [rowMatches, and_F00F_eq_iff]

theorem rowMatches_op_kk_iff :
    rowMatches w ⟨0xF0FF, encodeK op 0 kk, b⟩ = true ↔ opField w = op ∧ kkField w = kk := by
  have hkk : kkField w = kk ↔ yField w = yField (encodeK op 0 kk) ∧ nField w = nField (encodeK op 0 kk) := by
    rw [← kkField_eq_iff, kkField_encodeK]
  rw [hkk, rowMatches, beq_iff_eq]
  show w &&& 0xF0FF#16 = _ ↔ _
  rw [and_F0FF_eq_iff (xField_encodeK op 0 kk), opField_encodeK]

end

/-! ## The row that decides (R94) -/

/-- A bit that both masks cover tells every row but SYS (row 2) from each row before it. -/
theorem rows_toldApart : ∀ k : Fin opcodeRows.length, k.val ≠ 2 → ∀ q ∈ opcodeRows.take k,
    q.mask &&& opcodeRows[k].mask &&& (q.pattern ^^^ opcodeRows[k].pattern) ≠ 0#16 := by
  decide

theorem rows_overlap {w : Word} {j k : Nat} {q r : OpcodeRow} (hjk : j < k) (hq : opcodeRows[j]? = some q)
    (hr : opcodeRows[k]? = some r) (hwq : rowMatches w q = true) (hwr : rowMatches w r = true) :
    k = 2 ∧ (w = 0x00E0 ∨ w = 0x00EE) := by
  by_cases hk : k = 2
  · subst hk
    obtain rfl | rfl : j = 0 ∨ j = 1 := by omega
    · cases hq
      exact ⟨rfl, .inl (rowMatches_word_iff.1 hwq)⟩
    · cases hq
      exact ⟨rfl, .inr (rowMatches_word_iff.1 hwq)⟩
  · obtain ⟨hlt, rfl⟩ := List.getElem?_eq_some_iff.1 hr
    have hmem : q ∈ opcodeRows.take k := List.mem_of_getElem? (by rw [List.getElem?_take, if_pos hjk, hq])
    have hno := rowMatches_disjoint (rows_toldApart ⟨k, hlt⟩ hk q hmem) hwr
    rw [hwq] at hno
    cases hno

theorem decodeWord_of_first {w : Word} {k : Nat} {r : OpcodeRow} (hk : opcodeRows[k]? = some r)
    (hr : rowMatches w r = true)
    (before : ∀ (j : Nat) (q : OpcodeRow), j < k → opcodeRows[j]? = some q → rowMatches w q = false) :
    decodeWord w = .ok (r.build w) := by
  obtain ⟨hlt, hget⟩ := List.getElem?_eq_some_iff.1 hk
  have hfind : opcodeRows.find? (rowMatches w) = some r :=
    List.find?_eq_some_iff_getElem.2 ⟨hr, k, hlt, hget, fun j hj => by
      rw [before j _ hj (List.getElem?_eq_getElem _)]; rfl⟩
  rw [decodeWord, hfind]

/-- A word that matches a row is read by that row, unless it is 00E0 or 00EE and the row is that of SYS. -/
theorem decodeWord_of_rowMatches {w : Word} {k : Nat} {r : OpcodeRow} (hk : opcodeRows[k]? = some r)
    (hr : rowMatches w r = true) (hsys : k = 2 → w ≠ 0x00E0 ∧ w ≠ 0x00EE) : decodeWord w = .ok (r.build w) := by
  refine decodeWord_of_first hk hr fun j q hj hq => ?_
  rw [← Bool.not_eq_true]
  intro hwq
  obtain ⟨hk2, hw⟩ := rows_overlap hj hq hk hwq hr
  obtain ⟨hcls, hret⟩ := hsys hk2
  exact hw.elim hcls hret

theorem decodeWord_eq_ok {w : Word} {i : Instr} (h : decodeWord w = .ok i) :
    ∃ r ∈ opcodeRows, rowMatches w r = true ∧ r.build w = i := by
  unfold decodeWord at h
  split at h
  · next r hfind =>
    cases h
    exact ⟨r, List.mem_of_find?_eq_some hfind, List.find?_some hfind, rfl⟩
  · cases h

/-- The word matches no row of the table. -/
def matchesNoRow (w : Word) : Prop := ∀ r ∈ opcodeRows, rowMatches w r = false

theorem decodeWord_eq_error_iff {w : Word} {e : DecodeError} :
    decodeWord w = .error e ↔ matchesNoRow w ∧ illegalFamily w = e := by
  have hnone : matchesNoRow w ↔ opcodeRows.find? (rowMatches w) = none := by simp [matchesNoRow]
  rw [hnone, decodeWord]
  cases opcodeRows.find? (rowMatches w) <;> simp

/-- Settles O4: the search stops at the first match, fails without one, and only SYS can match beside an earlier row. -/
theorem firstMatchingRowDecodes : Obligations.FirstMatchingRowDecodes :=
  ⟨fun _ _ _ hk hr before => decodeWord_of_first hk hr before,
    fun w h => ⟨illegalFamily w, decodeWord_eq_error_iff.2 ⟨h, rfl⟩⟩,
    fun _ _ _ _ _ hjk hq hr hwq hwr => rows_overlap hjk hq hr hwq hwr⟩

/-! ## Decoding an encoded instruction (R92, R93) -/

/-- The constructors of `Instr` stand in the order of the table; an instruction's own row matches its word and reads it
back. -/
theorem ownRow_reads_encode (i : Instr) :
    ∃ r, opcodeRows[i.ctorIdx]? = some r ∧ rowMatches (encode i) r = true ∧ r.build (encode i) = i := by
  cases i
  case cls | ret => exact ⟨_, rfl, rfl, rfl⟩
  case sys | jp | call | ldI | jpV0 => exact ⟨_, rfl, rowMatches_op_iff.2 (opField_encodeA _ _), by simp [encode]⟩
  case seImm | sneImm | ldImm | addImm | rnd =>
    exact ⟨_, rfl, rowMatches_op_iff.2 (opField_encodeK _ _ _), by simp [encode]⟩
  case drw => exact ⟨_, rfl, rowMatches_op_iff.2 (opField_encodeR _ _ _ _), by simp [encode]⟩
  case seReg | ldReg | orReg | andReg | xorReg | addReg | subReg | shr | subn | shl | sneReg =>
    exact ⟨_, rfl, rowMatches_op_n_iff.2 ⟨opField_encodeR _ _ _ _, nField_encodeR _ _ _ _⟩, by simp [encode]⟩
  case skp | sknp | ldVxDt | ldVxK | ldDtVx | ldStVx | addI | ldF | ldB | ldMemVx | ldVxMem =>
    exact ⟨_, rfl, rowMatches_op_kk_iff.2 ⟨opField_encodeK _ _ _, kkField_encodeK _ _ _⟩, by simp [encode]⟩

theorem wellFormed_iff (i : Instr) : wellFormed i = true ↔ i ≠ .sys 0x0E0 ∧ i ≠ .sys 0x0EE := by
  cases i <;> simp [wellFormed]

/-- Only SYS stands for row 2, and the words 00E0 and 00EE carry the two operands a SYS may not have (R98). -/
theorem encode_ne_of_sysRow {i : Instr} (h : wellFormed i = true) (hrow : i.ctorIdx = 2) :
    encode i ≠ 0x00E0 ∧ encode i ≠ 0x00EE := by
  cases i
  case sys aaa =>
    obtain ⟨hcls, hret⟩ := (wellFormed_iff _).1 h
    have haaa : aaaField (encode (.sys aaa)) = aaa := aaaField_encodeA 0 aaa
    exact ⟨fun hw => hcls (by rw [← haaa, hw]; rfl), fun hw => hret (by rw [← haaa, hw]; rfl)⟩
  all_goals cases hrow

theorem decodeWord_encode {i : Instr} (h : wellFormed i = true) : decodeWord (encode i) = .ok i := by
  obtain ⟨r, hk, hr, hbuild⟩ := ownRow_reads_encode i
  rw [decodeWord_of_rowMatches hk hr (encode_ne_of_sysRow h), hbuild]

theorem decodeBytes_bytesOfWord (w : Word) (rest : List Byte) :
    decodeBytes (bytesOfWord w ++ rest) = (decodeWord w).map (·, rest) := by
  rw [bytesOfWord, List.cons_append, List.cons_append, List.nil_append, decodeBytes, wordOfBytes_bytes]
  cases decodeWord w <;> rfl

/-- Settles O2: the two bytes are the instruction's word, which its own row reads. -/
theorem decodeInvertsEncode : Obligations.DecodeInvertsEncode := by
  intro i rest h
  rw [encodeBytes, decodeBytes_bytesOfWord, decodeWord_encode h]
  rfl

/-! ## Encoding a decoded word (R94, R96) -/

/-- A word of format A is its leading nibble and its operand. -/
theorem encodeA_aaaField {w : Word} {op : Nibble} (h : opField w = op) : encodeA op (aaaField w) = w := by
  subst h
  refine BitVec.eq_of_getLsbD_eq fun i hi => ?_
  simp only [opField, aaaField, encodeA, BitVec.getLsbD_append, BitVec.getLsbD_extractLsb']
  interval_cases i <;> simp

theorem encodeK_fields {w : Word} {op : Nibble} {kk : Byte} (h : opField w = op ∧ kkField w = kk) :
    encodeK op (xField w) kk = w := by
  obtain ⟨rfl, rfl⟩ := h
  exact word_ext (by simp) (by simp) (by simp) (by simp)

theorem encodeR_fields {w : Word} {op n : Nibble} (h : opField w = op ∧ nField w = n) :
    encodeR op (xField w) (yField w) n = w := by
  obtain ⟨rfl, rfl⟩ := h
  exact word_ext (by simp) (by simp) (by simp) (by simp)

/-- What a row builds of a word that matches it encodes back to the word. -/
def rebuilds (r : OpcodeRow) : Prop := ∀ w : Word, rowMatches w r = true → encode (r.build w) = w

theorem rowsControl_rebuild : ∀ r ∈ rowsControl, rebuilds r := by
  refine List.forall_iff_forall_mem.1 ⟨?cls, ?ret, ?sys, ?jp, ?call⟩
  case cls | ret => exact fun w h => (rowMatches_word_iff.1 h).symm
  all_goals exact fun w h => encodeA_aaaField (rowMatches_op_iff.1 h)

theorem rowsImmediate_rebuild : ∀ r ∈ rowsImmediate, rebuilds r := by
  refine List.forall_iff_forall_mem.1 ⟨?seImm, ?sneImm, ?seReg, ?ldImm, ?addImm⟩
  case seReg => exact fun w h => encodeR_fields (rowMatches_op_n_iff.1 h)
  all_goals exact fun w h => encodeK_fields ⟨rowMatches_op_iff.1 h, rfl⟩

theorem rowsAlu_rebuild : ∀ r ∈ rowsAlu, rebuilds r := by
  refine List.forall_iff_forall_mem.1 ⟨?_, ?_, ?_, ?_, ?_, ?_, ?_, ?_, ?_⟩
  all_goals exact fun w h => encodeR_fields (rowMatches_op_n_iff.1 h)

theorem rowsMiddle_rebuild : ∀ r ∈ rowsMiddle, rebuilds r := by
  refine List.forall_iff_forall_mem.1 ⟨?sneReg, ?ldI, ?jpV0, ?rnd, ?drw, ?skp, ?sknp⟩
  case sneReg => exact fun w h => encodeR_fields (rowMatches_op_n_iff.1 h)
  case ldI | jpV0 => exact fun w h => encodeA_aaaField (rowMatches_op_iff.1 h)
  case rnd => exact fun w h => encodeK_fields ⟨rowMatches_op_iff.1 h, rfl⟩
  case drw => exact fun w h => encodeR_fields ⟨rowMatches_op_iff.1 h, rfl⟩
  case skp | sknp => exact fun w h => encodeK_fields (rowMatches_op_kk_iff.1 h)

theorem rowsMisc_rebuild : ∀ r ∈ rowsMisc, rebuilds r := by
  refine List.forall_iff_forall_mem.1 ⟨?_, ?_, ?_, ?_, ?_, ?_, ?_, ?_, ?_⟩
  all_goals exact fun w h => encodeK_fields (rowMatches_op_kk_iff.1 h)

theorem opcodeRows_rebuild : ∀ r ∈ opcodeRows, rebuilds r := by
  simp only [opcodeRows, List.forall_mem_append]
  exact ⟨⟨⟨⟨rowsControl_rebuild, rowsImmediate_rebuild⟩, rowsAlu_rebuild⟩, rowsMiddle_rebuild⟩, rowsMisc_rebuild⟩

theorem encode_of_decodeWord {w : Word} {i : Instr} (h : decodeWord w = .ok i) : encode i = w := by
  obtain ⟨r, hr, hw, rfl⟩ := decodeWord_eq_ok h
  exact opcodeRows_rebuild r hr w hw

/-- A SYS with one of the two excluded operands would be the reading of 00E0 or 00EE, which decode to CLS and RET. -/
theorem wellFormed_of_decodeWord {w : Word} {i : Instr} (h : decodeWord w = .ok i) : wellFormed i = true := by
  have hw := encode_of_decodeWord h
  refine (wellFormed_iff i).2 ⟨?_, ?_⟩
  · rintro rfl
    rw [← hw, show decodeWord (encode (.sys 0x0E0)) = .ok .cls from rfl] at h
    cases h
  · rintro rfl
    rw [← hw, show decodeWord (encode (.sys 0x0EE)) = .ok .ret from rfl] at h
    cases h

/-- Settles O3: every row rebuilds the words it reads, and CLS and RET stand before SYS. -/
theorem encodeInvertsDecode : Obligations.EncodeInvertsDecode :=
  fun _ _ h => ⟨encode_of_decodeWord h, wellFormed_of_decodeWord h⟩

/-! ## The illegal words (R97) -/

/-- Every row tests the whole leading nibble. -/
theorem opField_of_rowMatches {w : Word} {r : OpcodeRow} (hr : r ∈ opcodeRows) (h : rowMatches w r = true) :
    opField r.pattern = opField w := by
  have hmask : ∀ r ∈ opcodeRows, opField r.mask = 0xF#4 := by decide
  rw [← beq_iff_eq.1 h, opField_and, hmask r hr, nibble_and_F]

/-- The rows of one leading nibble. -/
def rowsOf (op : Nibble) : List OpcodeRow := opcodeRows.filter (opField ·.pattern == op)

theorem mem_rowsOf {op : Nibble} {r : OpcodeRow} : r ∈ rowsOf op ↔ r ∈ opcodeRows ∧ opField r.pattern = op := by
  simp [rowsOf]

/-- Only the rows of a word's leading nibble can match it. -/
theorem matchesNoRow_iff_rowsOf {w : Word} {op : Nibble} (h : opField w = op) :
    matchesNoRow w ↔ ∀ r ∈ rowsOf op, ¬ rowMatches w r = true := by
  refine ⟨fun hno r hr hw => ?_, fun hno r hr => Bool.eq_false_iff.2 fun hw => ?_⟩
  · rw [hno r (mem_rowsOf.1 hr).1] at hw
    cases hw
  · exact hno r (mem_rowsOf.2 ⟨hr, (opField_of_rowMatches hr hw).trans h⟩) hw

/-- Outside five leading nibbles some row tests the leading nibble alone. -/
theorem op_of_matchesNoRow {w : Word} (h : matchesNoRow w) : opField w ∈ [0x5#4, 0x8#4, 0x9#4, 0xE#4, 0xF#4] := by
  have hrow : ∀ op : Nibble, op ∉ [0x5#4, 0x8#4, 0x9#4, 0xE#4, 0xF#4] →
      ∃ r ∈ opcodeRows, r.mask = 0xF000 ∧ r.pattern = encodeR op 0 0 0 := by decide
  by_contra hop
  obtain ⟨⟨m, p, b⟩, hr, rfl, rfl⟩ := hrow _ hop
  exact absurd ((h _ hr).symm.trans (rowMatches_F000 b rfl)) Bool.false_ne_true

/-- If each row of a leading nibble tests the field `f` beside it, the legal values of `f` are those of their patterns. -/
theorem matchesNoRow_iff_field {α : Type} (f : Word → α) {w : Word} {op : Nibble} (h : opField w = op)
    (hrows : ∀ r ∈ rowsOf op, (rowMatches w r = true ↔ f w = f r.pattern)) :
    matchesNoRow w ↔ f w ∉ (rowsOf op).map (f ·.pattern) := by
  rw [matchesNoRow_iff_rowsOf h, List.mem_map, not_exists]
  refine forall_congr' fun r => ?_
  rw [not_and]
  exact forall_congr' fun hr => not_congr ((hrows r hr).trans eq_comm)

theorem matchesNoRow_iff_nField {w : Word} {op : Nibble} (h : opField w = op)
    (hrows : ∀ r ∈ rowsOf op, r.mask = 0xF00F ∧ r.pattern = encodeR op 0 0 (nField r.pattern)) :
    matchesNoRow w ↔ nField w ∉ (rowsOf op).map (nField ·.pattern) := by
  refine matchesNoRow_iff_field nField h ?_
  rintro ⟨m, p, b⟩ hr
  obtain ⟨rfl, hp⟩ := hrows _ hr
  rw [show p = _ from hp, rowMatches_op_n_iff, nField_encodeR, and_iff_right h]

theorem matchesNoRow_iff_kkField {w : Word} {op : Nibble} (h : opField w = op)
    (hrows : ∀ r ∈ rowsOf op, r.mask = 0xF0FF ∧ r.pattern = encodeK op 0 (kkField r.pattern)) :
    matchesNoRow w ↔ kkField w ∉ (rowsOf op).map (kkField ·.pattern) := by
  refine matchesNoRow_iff_field kkField h ?_
  rintro ⟨m, p, b⟩ hr
  obtain ⟨rfl, hp⟩ := hrows _ hr
  rw [show p = _ from hp, rowMatches_op_kk_iff, kkField_encodeK, and_iff_right h]

/-- The leading nibble of the illegal words on a line of R97, by the line's name. -/
def illegalOp : DecodeError → Option Nibble
  | .illegalSeReg => some 0x5
  | .illegalAlu => some 0x8
  | .illegalSneReg => some 0x9
  | .illegalKey => some 0xE
  | .illegalMisc => some 0xF
  | .tooShort => none

theorem illegalFamily_eq_iff {w : Word} (h : matchesNoRow w) (e : DecodeError) :
    illegalFamily w = e ↔ illegalOp e = some (opField w) := by
  have hop := op_of_matchesNoRow h
  unfold illegalFamily
  generalize opField w = op at hop
  revert op
  cases e <;> decide

theorem decodeWord_eq_error_iff_op {w : Word} {e : DecodeError} {op : Nibble} {bad : Prop} (he : illegalOp e = some op)
    (hbad : opField w = op → (matchesNoRow w ↔ bad)) : decodeWord w = .error e ↔ opField w = op ∧ bad := by
  have hname (hno : matchesNoRow w) : illegalFamily w = e ↔ opField w = op := by
    rw [illegalFamily_eq_iff hno, he, Option.some_inj, eq_comm]
  rw [decodeWord_eq_error_iff, and_congr_right hname, and_comm, and_congr_right hbad]

theorem alu_nibbles : ∀ n : Nibble,
    n ∉ (rowsOf 0x8).map (nField ·.pattern) ↔ n ∈ [0x8#4, 0x9#4, 0xA#4, 0xB#4, 0xC#4, 0xD#4, 0xF#4] := by
  decide

/-- Settles O5: for each of the five leading nibbles, the field its rows test and the values it may have. -/
theorem illegalWordsAreRefusedByName : Obligations.IllegalWordsAreRefusedByName := by
  intro w
  refine ⟨?seReg, ?sneReg, ?alu, ?key, ?misc, ?short⟩
  case seReg | sneReg =>
    exact decodeWord_eq_error_iff_op rfl fun h => (matchesNoRow_iff_nField h (by decide)).trans List.mem_singleton.not
  case alu =>
    exact decodeWord_eq_error_iff_op rfl fun h => (matchesNoRow_iff_nField h (by decide)).trans (alu_nibbles _)
  case key | misc => exact decodeWord_eq_error_iff_op rfl fun h => matchesNoRow_iff_kkField h (by decide)
  case short =>
    rw [Ne, decodeWord_eq_error_iff]
    rintro ⟨hno, hname⟩
    cases (illegalFamily_eq_iff hno _).1 hname

/-! ## Words of the table's numbering -/

theorem decodeTableWord_eq (w : Word) : decodeTableWord 16 w.toNat = (decodeWord w).toOption := by
  have hw : tableWord 16 w.toNat = w := by
    rw [tableWord, Nat.mod_eq_of_lt w.isLt, BitVec.ofNat_toNat, BitVec.setWidth_eq]
  have hbytes := decodeBytes_bytesOfWord w []
  rw [List.append_nil] at hbytes
  rw [decodeTableWord, hw, hbytes]
  cases decodeWord w <;> rfl

theorem decodeTableWord_encode {i : Instr} (h : wellFormed i = true) : decodeTableWord 16 (encode i).toNat = some i := by
  rw [decodeTableWord_eq, decodeWord_encode h]; rfl

theorem decodeTableWord_illegal {w : Word} {e : DecodeError} (h : decodeWord w = .error e) :
    decodeTableWord 16 w.toNat = none := by
  rw [decodeTableWord_eq, h]; rfl

/-- Settles O1: eleven of the words are encodings, and three stand on lines of R97. -/
theorem specWordsDecodeAsWritten : Obligations.SpecWordsDecodeAsWritten :=
  ⟨decodeTableWord_encode (i := .cls) rfl, decodeTableWord_encode (i := .ret) rfl,
    decodeTableWord_encode (i := .sys 0x234) rfl, decodeTableWord_encode (i := .jp 0xABC) rfl,
    decodeTableWord_encode (i := .call 0x210) rfl, decodeTableWord_encode (i := .seImm 3 0x2A) rfl,
    decodeTableWord_encode (i := .addReg 2 9) rfl, decodeTableWord_encode (i := .jpV0 0x300) rfl,
    decodeTableWord_encode (i := .drw 1 2 5) rfl, decodeTableWord_encode (i := .skp 1) rfl,
    decodeTableWord_encode (i := .ldMemVx 2) rfl, decodeTableWord_illegal (w := 0x5121) (e := .illegalSeReg) rfl,
    decodeTableWord_illegal (w := 0x812F) (e := .illegalAlu) rfl,
    decodeTableWord_illegal (w := 0xF1FF) (e := .illegalMisc) rfl⟩

/-! ## The fault of an illegal word (R124, R262) -/

theorem runWord_illegal {w : Word} {e : DecodeError} (h : decodeWord w = .error e) (s : State) :
    runWord w s = .next (s.raise (.illegalInstruction w s.pc0)) := by
  rw [runWord, h]

theorem handlerStart_pc0 (s : State) : (handlerStart s).pc0 = s.pc := BitVec.add_sub_cancel s.pc 2

theorem sameExcept_handlerStart (s : State) : sameExcept [.pc, .loadOpen] s (handlerStart s) :=
  ((sameExcept_closeLoad s).mono (by decide)).trans ((sameExcept_setPc s.closeLoad _).mono (by decide))

/-- Settles O11: the tick advances the pc, with `load` closed, and raises the fault at the address it came from. -/
theorem illegalWordFaults : Obligations.IllegalWordFaults := by
  intro s e hfetch herr
  refine ⟨_, (tick_of_fetches hfetch).trans (runWord_illegal herr _), rfl, ?_, ?_, ?_⟩
  · rw [State.raise_fault, handlerStart_pc0]
  · obtain ⟨-, hpc⟩ := hfetch
    exact advance_pc_toNat (s := s.closeLoad) hpc
  · exact ((sameExcept_handlerStart s).mono (by decide)).trans ((sameExcept_raise _ _).mono (by decide))

end Sys2Proof.Safety
end

section
/-!
PROOFS. The tick and its order (R120 to R131, decision D9): what a halted core and a fetch past memory do, the state a handler
starts from, how the instruction's outcome becomes the tick's, and the two ticks that leave almost everything alone: SYS (R128)
and a key wait with nothing available (R131, R237).
-/

namespace Sys2Proof.Safety

open Sys2Proof.Machine

/-! ## Ticks that fetch nothing (R121, R129) -/

/-- Settles O9: the halted check is the first thing a tick does. -/
theorem haltedTickChangesNothing : Obligations.HaltedTickChangesNothing := fun _ h => if_pos h

theorem tick_of_pc_pastMemory {s : State} (hrun : s.halted = false) (hpc : 0xFFE < s.pc.toNat) :
    tick s = .next (s.closeLoad.raise (.addressOutOfRange s.pc.toNat)) := by
  rw [tick, hrun, if_neg Bool.false_ne_true, if_pos hpc]

/-- Settles O10: such a tick closes `load` and raises the fault, and does nothing else. -/
theorem fetchPastMemoryFaults : Obligations.FetchPastMemoryFaults := fun s hrun hpc =>
  ⟨_, tick_of_pc_pastMemory hrun hpc, rfl, rfl,
    ((sameExcept_closeLoad s).mono (by decide)).trans ((sameExcept_raise _ _).mono (by decide))⟩

/-! ## The state a handler starts from (R122) -/

theorem handlerStart_pc_toNat {s : State} (h : fetches s) : (handlerStart s).pc.toNat = s.pc.toNat + 2 := by
  obtain ⟨-, hpc⟩ := h
  exact advance_pc_toNat (s := s.closeLoad) hpc

/-- Settles O8: the tick runs the fetched word from the advanced pc, which is at most 0x1000. -/
theorem handlerSeesTheAdvancedPc : Obligations.HandlerSeesTheAdvancedPc := fun s h =>
  ⟨tick_of_fetches h, handlerStart_pc_toNat h, handlerStart_pc0 s, sameExcept_handlerStart s⟩

/-! ## From the instruction's outcome to the tick's (R123 to R125) -/

/-- A word that decodes answers what its instruction answers, with the tick finished after it. -/
theorem runWord_decoded {w : Word} {i : Instr} (h : decodeWord w = .ok i) (s : State) :
    runWord w s = mapNext State.finishTick (exec i s) := by
  rw [runWord, h]; rfl

theorem tick_decoded {s : State} {i : Instr} (hfetch : fetches s) (h : decodeWord s.fetchWord = .ok i) :
    tick s = mapNext State.finishTick (exec i (handlerStart s)) :=
  (tick_of_fetches hfetch).trans (runWord_decoded h _)

theorem decodeWord_of_decodeBytes {hi lo : Byte} {i : Instr} (h : decodeBytes [hi, lo] = .ok (i, [])) :
    decodeWord (wordOfBytes hi lo) = .ok i := by
  rw [decodeBytes] at h
  cases hw : decodeWord (wordOfBytes hi lo) with
  | ok j => rw [hw] at h; cases h; rfl
  | error e => rw [hw] at h; cases h

/-- Settles O6: the step is the tick of the state the host leaves, and that tick is the decoded instruction's. -/
theorem stepRunsTheDecodedInstruction : Obligations.StepRunsTheDecodedInstruction := fun _ _ _ hturn hfetch hbytes _ =>
  ⟨rfl, rfl, (step_of_hostTurn hturn).trans (tick_decoded hfetch (decodeWord_of_decodeBytes hbytes))⟩

/-! ## The end of a tick (R125 to R127) -/

section
variable {s : State}

theorem finishTick_of_halted (h : s.halted = true) : s.finishTick = s := if_pos h

theorem finishTick_of_running (h : s.halted = false) : s.finishTick = s.updateTimerRegs.pulseRender :=
  if_neg (by rw [h]; decide)

theorem finishTick_dt_toNat (h : s.halted = false) :
    s.finishTick.dt.toNat = if s.updateTimers then s.dt.toNat - 1 else s.dt.toNat := by
  rw [finishTick_of_running h, State.updateTimerRegs_eq, ← countDown_toNat, ← apply_ite BitVec.toNat]; rfl

theorem finishTick_st_toNat (h : s.halted = false) :
    s.finishTick.st.toNat = if s.updateTimers then s.st.toNat - 1 else s.st.toNat := by
  rw [finishTick_of_running h, State.updateTimerRegs_eq, ← countDown_toNat, ← apply_ite BitVec.toNat]; rfl

theorem finishTick_renderReqs (h : s.halted = false) : s.finishTick.renderReqs = s.renderReqs + 1 := by
  rw [finishTick_of_running h, State.updateTimerRegs_eq]; rfl

end

theorem sameExcept_finishTick (s : State) : sameExcept [.dt, .st, .renderReqs] s s.finishTick := by
  intro p hp; cases p <;> simp [samePart] at hp ⊢

/-- No instruction writes the tick's argument or the pulse count. -/
theorem tickPorts_not_mem_mayWrite (i : Instr) : Part.updateTimers ∉ mayWrite i ∧ Part.renderReqs ∉ mayWrite i := by
  cases i <;> simp [mayWrite]

theorem exec_keeps_tickPorts {i : Instr} {s u : State} (h : exec i s = .next u) :
    u.updateTimers = s.updateTimers ∧ u.renderReqs = s.renderReqs := by
  obtain ⟨hframe, -, -⟩ := exec_keepsFrame h
  obtain ⟨htimers, hpulses⟩ := tickPorts_not_mem_mayWrite i
  exact ⟨hframe .updateTimers htimers, hframe .renderReqs hpulses⟩

/-- Settles O12: the tick finishes the state the instruction left, whose argument and pulse count are still the tick's. -/
theorem tickEndsWithTimersAndRender : Obligations.TickEndsWithTimersAndRender := by
  intro s u i hfetch hdecode hexec
  have htick : tick s = .next u.finishTick := by rw [tick_decoded hfetch hdecode, hexec]; rfl
  obtain ⟨htimers, hpulses⟩ : u.updateTimers = s.updateTimers ∧ u.renderReqs = s.renderReqs :=
    exec_keeps_tickPorts (s := handlerStart s) hexec
  refine ⟨fun hrun => ⟨_, htick, ?_, ?_, ?_, sameExcept_finishTick u⟩, fun hhalt => ?_⟩
  · rw [finishTick_dt_toNat hrun, htimers]
  · rw [finishTick_st_toNat hrun, htimers]
  · rw [finishTick_renderReqs hrun, hpulses]
  · rw [htick, finishTick_of_halted hhalt]

/-! ## SYS (R128) -/

theorem decodeWord_sys {w : Word} (hop : w &&& 0xF000 = 0x0000) (hcls : w ≠ 0x00E0) (hret : w ≠ 0x00EE) :
    decodeWord w = .ok (.sys (aaaField w)) :=
  decodeWord_of_rowMatches (k := 2) rfl (beq_iff_eq.2 hop) fun _ => ⟨hcls, hret⟩

/-- Settles O21: row 2 reads the word, its handler leaves the state it starts from, and the tick ends as O12 says. -/
theorem sysIsANoOp : Obligations.SysIsANoOp := by
  refine ⟨fun w => decodeWord_sys, fun aaa s => rfl, fun s hfetch hop hcls hret => ?_⟩
  have hrun : (handlerStart s).halted = false := hfetch.1
  obtain ⟨hend, -⟩ := tickEndsWithTimersAndRender s (handlerStart s) _ hfetch (decodeWord_sys hop hcls hret) rfl
  obtain ⟨t, htick, -, -, -, hsame⟩ := hend hrun
  refine ⟨t, htick, ?_, ?_⟩
  · rw [show t.pc = (handlerStart s).pc from hsame .pc (by decide), handlerStart_pc_toNat hfetch]
  · exact ((sameExcept_handlerStart s).mono (by decide)).trans (hsame.mono (by decide))

/-! ## A key wait with nothing available (R131, R237) -/

/-- A listed part that did not change after all can be struck from the list. -/
theorem sameExcept.tail {p : Part} {ps : List Part} {s t : State} (h : sameExcept (p :: ps) s t) (hp : samePart p s t) :
    sameExcept ps s t := by
  intro q hq
  by_cases hqp : q = p
  · rw [hqp]; exact hp
  · exact h q (List.not_mem_cons_of_ne_of_not_mem hqp hq)

theorem waitKey_of_no_event {s : State} (h : s.raw = []) (x : Reg) : s.waitKey x = s.rewind := by
  rw [State.waitKey, h]

theorem handlerStart_rewind_pc (s : State) : (handlerStart s).rewind.pc = s.pc := handlerStart_pc0 s

theorem sameExcept_handlerStart_rewind (s : State) : sameExcept [.loadOpen] s (handlerStart s).rewind :=
  ((sameExcept_handlerStart s).trans ((sameExcept_setPc (handlerStart s) _).mono (by decide))).tail
    (handlerStart_rewind_pc s)

/-- Settles O54: the handler takes the advance back, so that what the tick changes is its end, as O12 says, and the load mark. -/
theorem waitingTickRetriesTheSameInstruction : Obligations.WaitingTickRetriesTheSameInstruction := by
  intro x s hfetch hword hraw
  have hexec : exec (.ldVxK x) (handlerStart s) = .next (handlerStart s).rewind :=
    congrArg Host.Outcome.next (waitKey_of_no_event (s := handlerStart s) hraw x)
  have hdecode : decodeWord s.fetchWord = .ok (.ldVxK x) := by rw [hword, decodeWord_encode rfl]
  have hrun : (handlerStart s).rewind.halted = false := hfetch.1
  obtain ⟨hend, -⟩ := tickEndsWithTimersAndRender s _ _ hfetch hdecode hexec
  obtain ⟨t, htick, hdt, hst, hpulse, hsame⟩ := hend hrun
  refine ⟨t, htick, ?_, hpulse, hdt, hst, ?_⟩
  · rw [show t.pc = (handlerStart s).rewind.pc from hsame .pc (by decide), handlerStart_rewind_pc]
  · exact ((sameExcept_handlerStart_rewind s).mono (by decide)).trans (hsame.mono (by decide))

end Sys2Proof.Safety
end

section
/-!
PROOFS. Control transfer (R140 to R150): jumps, skips, the push of CALL and the pop of RET with the faults of a full and an empty
stack (decision D4), and the call that comes back.
-/

namespace Sys2Proof.Safety

open Sys2Proof.Machine

/-! ## Jumps (R141, R144) -/

theorem noFaultNoFlag_setPc (s : State) (w : Word) : noFaultNoFlag s (s.setPc w) := ⟨rfl, rfl, rfl⟩

/-- The sum of JP V0 is exact: a byte and twelve bits do not wrap sixteen (R144). -/
theorem jpV0_target_toNat (s : State) (aaa : Imm12) :
    (s.reg16 0 + imm16 aaa).toNat = (s.reg 0).toNat + aaa.toNat := by
  have hreg := (s.reg 0).isLt
  have haaa := aaa.isLt
  rw [BitVec.toNat_add, State.reg16_toNat, imm16_toNat, Nat.mod_eq_of_lt (by omega)]

/-- Settles O22: row 3 reads the word, and the target is the operand zero-extended. -/
theorem jumpGoesToItsTarget : Obligations.JumpGoesToItsTarget :=
  ⟨readsAs_row 3 rfl (by decide), fun aaa s => ⟨_, rfl, imm16_toNat aaa, noFaultNoFlag_setPc s _⟩⟩

/-- Settles O23: row 21 reads the word, and the target does not wrap. -/
theorem jumpV0AddsV0 : Obligations.JumpV0AddsV0 :=
  ⟨readsAs_row 21 rfl (by decide), fun aaa s => ⟨_, rfl, jpV0_target_toNat s aaa, noFaultNoFlag_setPc s _⟩⟩

/-! ## Skips (R145 to R148) -/

section
variable (s : State) (a b : Byte)

theorem noFaultNoFlag_skipIf (c : Bool) : noFaultNoFlag s (s.skipIf c) := by
  rw [State.skipIf_eq]; exact noFaultNoFlag_setPc s _

theorem skipIf_beq_pc : (s.skipIf (a == b)).pc = if a = b then s.pc + 2 else s.pc := by
  rw [State.skipIf_pc]; simp only [beq_iff_eq]

theorem skipIf_bne_pc : (s.skipIf (a != b)).pc = if a = b then s.pc else s.pc + 2 := by
  rw [State.skipIf_pc]; simp only [bne_iff_ne, ne_eq, ite_not]

/-- A skip on equality (SE) moves the pc exactly on equality and does nothing else. -/
theorem skipIf_beq_answers : ∃ t, (.next (s.skipIf (a == b)) : Host.Outcome State Fault Refusal) = .next t ∧
    t.pc = (if a = b then s.pc + 2 else s.pc) ∧ noFaultNoFlag s t :=
  ⟨_, rfl, skipIf_beq_pc s a b, noFaultNoFlag_skipIf s _⟩

/-- A skip on inequality (SNE) moves the pc exactly on inequality and does nothing else. -/
theorem skipIf_bne_answers : ∃ t, (.next (s.skipIf (a != b)) : Host.Outcome State Fault Refusal) = .next t ∧
    t.pc = (if a = b then s.pc else s.pc + 2) ∧ noFaultNoFlag s t :=
  ⟨_, rfl, skipIf_bne_pc s a b, noFaultNoFlag_skipIf s _⟩

end

/-- Settles O24: rows 5 and 6, each a skip on the comparison with the immediate. -/
theorem skipOnImmediate : Obligations.SkipOnImmediate :=
  ⟨readsAs_row 5 rfl (by decide), readsAs_row 6 rfl (by decide), fun x kk s =>
    ⟨skipIf_beq_answers s (s.reg x) kk, skipIf_bne_answers s (s.reg x) kk⟩⟩

/-- Settles O25: rows 7 and 19, each a skip on the comparison of the registers; another low nibble stands on a line of R97. -/
theorem skipOnRegisters : Obligations.SkipOnRegisters := by
  refine ⟨readsAs_row 7 rfl (by decide), readsAs_row 19 rfl (by decide), fun w hop hn => ?_, fun x y s =>
    ⟨skipIf_beq_answers s (s.reg x) (s.reg y), skipIf_bne_answers s (s.reg x) (s.reg y)⟩⟩
  obtain ⟨hseReg, hsneReg, -⟩ := illegalWordsAreRefusedByName w
  rcases hop with hop | hop
  · exact ⟨_, hseReg.2 ⟨hop, hn⟩⟩
  · exact ⟨_, hsneReg.2 ⟨hop, hn⟩⟩

/-! ## CALL and RET (R142, R143) -/

section
variable {s : State}

theorem exec_call_of_room (aaa : Imm12) (h : s.sp ≠ 15) :
    exec (.call aaa) s = .next (s.pushReturn.setPc (imm16 aaa)) := congrArg Host.Outcome.next (if_neg h)

theorem exec_call_of_full (aaa : Imm12) (h : s.sp = 15) :
    exec (.call aaa) s = .next (s.raise (.stackOverflow s.pc0)) := congrArg Host.Outcome.next (if_pos h)

theorem exec_ret_of_nonempty (h : s.sp ≠ 0) : exec .ret s = .next s.popReturn := congrArg Host.Outcome.next (if_neg h)

theorem exec_ret_of_empty (h : s.sp = 0) : exec .ret s = .next (s.raise (.stackUnderflow s.pc0)) :=
  congrArg Host.Outcome.next (if_pos h)

theorem slot_pushReturn_self : s.pushReturn.slot s.sp = s.pc := by rw [State.slot_pushReturn, if_pos rfl]

theorem slot_pushReturn_ne {j : Nibble} (h : j ≠ s.sp) : s.pushReturn.slot j = s.slot j := by
  rw [State.slot_pushReturn, if_neg h]

theorem pushReturn_sp_toNat (h : s.sp ≠ 15) : s.pushReturn.sp.toNat = s.sp.toNat + 1 := by
  rw [State.pushReturn_sp]; bv_omega

theorem popReturn_sp_toNat (h : s.sp ≠ 0) : s.popReturn.sp.toNat + 1 = s.sp.toNat := by
  rw [State.popReturn_sp]; bv_omega

end

/-- Settles O26: row 4 reads the word; the handler is a push and a jump, or the fault at SP = 15. -/
theorem callPushesTheReturnAddress : Obligations.CallPushesTheReturnAddress :=
  ⟨readsAs_row 4 rfl (by decide), fun aaa s =>
    ⟨fun h => ⟨_, exec_call_of_room aaa h, slot_pushReturn_self, pushReturn_sp_toNat h, imm16_toNat aaa,
      fun _ hj => slot_pushReturn_ne hj, rfl, rfl, rfl⟩,
    fun h => ⟨_, exec_call_of_full aaa h, rfl, rfl, sameExcept_raise s _⟩⟩⟩

/-- Settles O27: 00EE is the word of RET; the handler is a pop, or the fault at SP = 0. -/
theorem returnPopsTheReturnAddress : Obligations.ReturnPopsTheReturnAddress :=
  ⟨decodeWord_encode (i := .ret) rfl, fun s =>
    ⟨fun h => ⟨_, exec_ret_of_nonempty h, popReturn_sp_toNat h, rfl, fun _ => rfl, rfl, rfl, rfl⟩,
    fun h => ⟨_, exec_ret_of_empty h, rfl, rfl, sameExcept_raise s _⟩⟩⟩

/-! ## A call that comes back (R150) -/

/-- What a tick changes: what its handler changes, the pc it advances, the load mark, the timers and the pulse count. -/
theorem sameExcept_tick_of_handler {ps : List Part} {s u : State} (h : sameExcept ps (handlerStart s) u) :
    sameExcept (ps ++ [.pc, .loadOpen, .dt, .st, .renderReqs]) s u.finishTick :=
  (((sameExcept_handlerStart s).mono (List.subset_append_of_subset_right ps (by decide))).trans
    (h.mono (List.subset_append_left ps _))).trans
    ((sameExcept_finishTick u).mono (List.subset_append_of_subset_right ps (by decide)))

/-- The state a tick on CALL `aaa` leaves (R142). -/
def afterCall (aaa : Imm12) (s : State) : State := ((handlerStart s).pushReturn.setPc (imm16 aaa)).finishTick

/-- The state a tick on RET leaves (R143). -/
def afterRet (s : State) : State := (handlerStart s).popReturn.finishTick

section
variable {s : State} {aaa : Imm12}

theorem tick_call (hfetch : fetches s) (hsp : s.sp ≠ 15) (hword : s.fetchWord = encode (.call aaa)) :
    tick s = .next (afterCall aaa s) := by
  have hexec := exec_call_of_room (s := handlerStart s) aaa hsp
  rw [tick_decoded hfetch (i := .call aaa) (by rw [hword, decodeWord_encode rfl]), hexec]; rfl

theorem tick_ret (hfetch : fetches s) (hsp : s.sp ≠ 0) (hword : s.fetchWord = 0x00EE) :
    tick s = .next (afterRet s) := by
  have hexec := exec_ret_of_nonempty (s := handlerStart s) hsp
  rw [tick_decoded hfetch (i := .ret) (by rw [hword]; exact decodeWord_encode (i := .ret) rfl), hexec]; rfl

theorem afterCall_pc_toNat : (afterCall aaa s).pc.toNat = aaa.toNat := by simp [afterCall]

theorem afterCall_sp : (afterCall aaa s).sp = s.sp + 1 := by simp [afterCall, handlerStart]

theorem afterCall_slot (j : Nibble) : (afterCall aaa s).slot j = (handlerStart s).pushReturn.slot j := by simp [afterCall]

theorem sameExcept_afterCall : sameExcept [.stack, .sp, .pc, .loadOpen, .dt, .st, .renderReqs] s (afterCall aaa s) :=
  (sameExcept_tick_of_handler (((sameExcept_pushReturn _).mono (by decide)).trans
    ((sameExcept_setPc _ (imm16 aaa)).mono (by decide)) : sameExcept [.stack, .sp, .pc] _ _)).mono (by decide)

theorem afterCall_fetches (h : fetches s) (haaa : aaa.toNat ≤ 0xFFE) : fetches (afterCall aaa s) := by
  obtain ⟨hrun, -⟩ := h
  exact ⟨(sameExcept_afterCall .halted (by decide)).trans hrun, afterCall_pc_toNat.trans_le haaa⟩

/-- The fetch after a CALL reads the word at its target, in the memory the CALL found. -/
theorem afterCall_fetchWord :
    (afterCall aaa s).fetchWord = wordOfBytes (s.read aaa.toNat) (s.read (aaa.toNat + 1)) := by
  have hmem : ∀ a, (afterCall aaa s).read a = s.read a := sameExcept_afterCall .mem (by decide)
  rw [State.fetchWord, afterCall_pc_toNat, hmem, hmem]

theorem afterRet_pc : (afterRet s).pc = s.slot (s.sp - 1) := by simp [afterRet, handlerStart]

theorem afterRet_sp : (afterRet s).sp = s.sp - 1 := by simp [afterRet, handlerStart]

theorem afterRet_slot (j : Nibble) : (afterRet s).slot j = s.slot j := by simp [afterRet, handlerStart]

theorem sameExcept_afterRet : sameExcept [.sp, .pc, .loadOpen, .dt, .st, .renderReqs] s (afterRet s) :=
  (sameExcept_tick_of_handler (sameExcept_popReturn _)).mono (by decide)

/-- RET takes back the push of the CALL before it. -/
theorem afterRet_afterCall_sp : (afterRet (afterCall aaa s)).sp = s.sp := by
  rw [afterRet_sp, afterCall_sp, BitVec.add_sub_cancel]

/-- The popped slot is the pushed one, which holds the pc the CALL's handler saw. -/
theorem afterRet_afterCall_pc : (afterRet (afterCall aaa s)).pc = (handlerStart s).pc := by
  rw [afterRet_pc, afterCall_sp, BitVec.add_sub_cancel, afterCall_slot]
  exact slot_pushReturn_self (s := handlerStart s)

theorem afterRet_afterCall_slot {j : Nibble} (hj : j ≠ s.sp) : (afterRet (afterCall aaa s)).slot j = s.slot j := by
  rw [afterRet_slot, afterCall_slot]
  exact slot_pushReturn_ne (s := handlerStart s) hj

/-- Of the parts that either tick writes, SP is as it was. -/
theorem sameExcept_afterRet_afterCall :
    sameExcept [.pc, .stack, .dt, .st, .renderReqs, .loadOpen] s (afterRet (afterCall aaa s)) :=
  sameExcept.tail (p := .sp) ((sameExcept_afterCall.mono (by decide)).trans (sameExcept_afterRet.mono (by decide)))
    afterRet_afterCall_sp

end

/-- Settles O28: the tick on CALL leaves a core that fetches the RET with a return address to pop, and the tick on RET undoes
the push. -/
theorem callThenReturnComesBack : Obligations.CallThenReturnComesBack := by
  intro s aaa hfetch hsp hcall haaa hret
  have hsp' : (afterCall aaa s).sp ≠ 0 := by rw [afterCall_sp]; bv_omega
  refine ⟨_, _, tick_call hfetch hsp hcall, tick_ret (afterCall_fetches hfetch haaa) hsp' (afterCall_fetchWord.trans hret),
    ?_, afterRet_afterCall_sp, fun j hj => afterRet_afterCall_slot hj, sameExcept_afterRet_afterCall⟩
  rw [afterRet_afterCall_pc, handlerStart_pc_toNat hfetch]

end Sys2Proof.Safety
end

section
/-!
PROOFS. The loads and the ALU functions that write no flag (R162 to R167), and RND (R173): every word of their rows, the value
that goes to Vx, and VF kept unless it is the destination.
-/

namespace Sys2Proof.Safety

open Sys2Proof.Machine

/-- A write to one register raises no fault, and it writes VF only if VF is that register (R160). -/
theorem setReg_keeps_flag_unless_destination (s : State) (x : Reg) (b : Byte) :
    (x ≠ vf → noFaultNoFlag s (s.setReg x b)) ∧ (s.setReg x b).halted = s.halted ∧ (s.setReg x b).fault = s.fault :=
  ⟨fun h => ⟨rfl, rfl, State.reg_setReg_ne s b h.symm⟩, rfl, rfl⟩

/-- Settles O29: rows 8 and 10, each one register write. -/
theorem loadsSetTheDestination : Obligations.LoadsSetTheDestination :=
  ⟨readsAs_row 8 rfl (by decide), readsAs_row 10 rfl (by decide), fun x y kk s =>
    ⟨⟨_, rfl, State.reg_setReg_self s x kk, setReg_keeps_flag_unless_destination s x kk⟩,
     ⟨_, rfl, State.reg_setReg_self s x (s.reg y), setReg_keeps_flag_unless_destination s x (s.reg y)⟩⟩⟩

/-- Settles O30: row 9, one register write with the sum as a number. -/
theorem addImmediateWrapsWithoutFlag : Obligations.AddImmediateWrapsWithoutFlag :=
  ⟨readsAs_row 9 rfl (by decide), fun x kk s =>
    ⟨_, rfl, by rw [State.reg_setReg_self, addResult_toNat], setReg_keeps_flag_unless_destination s x _⟩⟩

/-- Settles O31: rows 11, 12 and 13, each one register write with the bits of the two operands combined. -/
theorem logicIsBitwiseWithoutFlag : Obligations.LogicIsBitwiseWithoutFlag := by
  refine ⟨readsAs_row 11 rfl (by decide), readsAs_row 12 rfl (by decide), readsAs_row 13 rfl (by decide), fun x y s =>
    ⟨⟨_, rfl, fun b => ?_, setReg_keeps_flag_unless_destination s x _⟩,
     ⟨_, rfl, fun b => ?_, setReg_keeps_flag_unless_destination s x _⟩,
     ⟨_, rfl, fun b => ?_, setReg_keeps_flag_unless_destination s x _⟩⟩⟩
  · rw [State.reg_setReg_self, BitVec.getLsbD_or]
  · rw [State.reg_setReg_self, BitVec.getLsbD_and]
  · rw [State.reg_setReg_self, BitVec.getLsbD_xor]

/-- A mask clears each bit where it has a 0 (R173). -/
theorem getLsbD_masked_of_clear (r : Byte) {kk : Byte} {b : Nat} (h : kk.getLsbD b = false) :
    (r &&& kk).getLsbD b = false := by
  rw [BitVec.getLsbD_and, h, Bool.and_false]

/-- Settles O35: row 22; the byte drawn is free, so all that is said of it is the mask and the advanced counter. -/
theorem randomIsMasked : Obligations.RandomIsMasked := by
  refine ⟨readsAs_row 22 rfl (by decide), fun x kk s => ?_⟩
  have hreg := State.reg_setReg_self s.countDraw x (Config.rnd s.draws &&& kk)
  exact ⟨_, rfl, hreg, fun b hb => by rw [hreg, getLsbD_masked_of_clear _ hb], rfl, rfl, rfl⟩

end Sys2Proof.Safety
end

section
/-!
PROOFS. The index register (R191 to R193) and the memory transfers inside memory (R195 to R199): every word of their rows, what
they write, and that they write nothing else. A block that runs past 0xFFF is `memoryInstructionsFaultPastTheEnd`.
-/

namespace Sys2Proof.Safety

open Sys2Proof.Machine

/-! ## The index register (R191 to R193) -/

theorem noFaultNoFlag_setI (s : State) (w : Word) : noFaultNoFlag s (s.setI w) := ⟨rfl, rfl, rfl⟩

/-- A sum in I wraps at 65536 (decision D20). -/
theorem addI_toNat (s : State) (x : Reg) : (s.i + s.reg16 x).toNat = (s.i.toNat + (s.reg x).toNat) % 65536 := by
  rw [BitVec.toNat_add, State.reg16_toNat]

/-- The mask `0xF` keeps the low nibble, and five bytes per glyph do not wrap (R193). -/
theorem glyphAddress_toNat (b : Byte) : (glyphAddress b).toNat = b.toNat % 16 * 5 := by
  have hnibble : (b &&& 0xF).toNat = b.toNat % 16 := Nat.and_two_pow_sub_one_eq_mod b.toNat 4
  rw [glyphAddress, BitVec.toNat_mul, BitVec.toNat_setWidth, hnibble]
  change b.toNat % 16 % 65536 * 5 % 65536 = b.toNat % 16 * 5
  omega

theorem glyphAddress_le (b : Byte) : (glyphAddress b).toNat ≤ 75 := by
  rw [glyphAddress_toNat]; omega

/-- Settles O36: row 20 reads the word, and the operand is zero-extended. -/
theorem indexIsLoaded : Obligations.IndexIsLoaded :=
  ⟨readsAs_row 20 rfl (by decide), fun aaa s => ⟨_, rfl, imm16_toNat aaa, noFaultNoFlag_setI s _⟩⟩

/-- Settles O37: row 30 reads the word, and the sum is that of `addI_toNat`. -/
theorem indexAddWrapsWithoutFlag : Obligations.IndexAddWrapsWithoutFlag :=
  ⟨readsAs_row 30 rfl (by decide), fun x s => ⟨_, rfl, addI_toNat s x, noFaultNoFlag_setI s _⟩⟩

/-- Settles O38: row 31 reads the word; the handler computes I from the register alone, and FONT gives glyph A. -/
theorem indexPointsAtTheGlyph : Obligations.IndexPointsAtTheGlyph :=
  ⟨readsAs_row 31 rfl (by decide),
    fun x s => ⟨_, rfl, glyphAddress_toNat (s.reg x), glyphAddress_le (s.reg x), noFaultNoFlag_setI s _, fun _ => rfl⟩,
    fun _ hglyph => readBytes_glyphA hglyph⟩

/-! ## Stores (R197, R198) -/

/-- The digits are those of the byte as a number, each below 10 (R197). -/
theorem decimalDigits_map_toNat (b : Byte) :
    (decimalDigits b).map BitVec.toNat = [b.toNat / 100, b.toNat / 10 % 10, b.toNat % 10] := by
  have hb := b.isLt
  simp (disch := omega) only [decimalDigits, List.map, BitVec.toNat_ofNat, Nat.mod_eq_of_lt]

/-- After Fx33 the digit number `k` stands at I + k. -/
theorem read_storeDigits {s : State} (b : Byte) (hm : s.memWf = true) (hlast : s.base ≤ 0xFFD) {k : Nat} (hk : k < 3) :
    ((s.storeBytes s.base (decimalDigits b)).read (s.base + k)).toNat =
      [b.toNat / 100, b.toNat / 10 % 10, b.toNat % 10][k] := by
  have hfits : s.base + (decimalDigits b).length ≤ Config.memSize := by
    rw [decimalDigits_length, Config.memSize]; omega
  calc ((s.storeBytes s.base (decimalDigits b)).read (s.base + k)).toNat
      = (decimalDigits b)[k].toNat := congrArg BitVec.toNat (State.read_storeBytes_inside hm _ _ hk hfits)
    _ = ((decimalDigits b).map BitVec.toNat)[k] := (List.getElem_map ..).symm
    _ = [b.toNat / 100, b.toNat / 10 % 10, b.toNat % 10][k] := by simp only [decimalDigits_map_toNat]

/-- Settles O39: inside memory Fx33 is one store of three bytes, the digits. -/
theorem decimalDigitsAreStored : Obligations.DecimalDigitsAreStored := by
  refine ⟨readsAs_row 32 rfl (by decide), fun x s hm hlast => ?_⟩
  have hin : inRange s.base 3 = true := (inRange_iff _ _).2 (.inr (Nat.add_le_add_right hlast 3))
  have hdigit {k : Nat} (hk : k < 3) := read_storeDigits (s.reg x) hm hlast hk
  exact ⟨_, (exec_ldB_eq s x).trans (rangeChecked_inside hin), hdigit (k := 0) (by decide), hdigit (k := 1) (by decide),
    hdigit (k := 2) (by decide), memExcept_storeBytes s s.base (decimalDigits (s.reg x)), sameExcept_storeBytes s _ _⟩

/-- Settles O40: inside memory Fx55 is one store of the block V0 to Vx. -/
theorem registerBlockIsStored : Obligations.RegisterBlockIsStored := by
  refine ⟨readsAs_row 33 rfl (by decide), fun x s hm hlast => ?_⟩
  have hin : inRange s.base (blockLength x) = true := (inRange_blockLength _ x).2 hlast
  have hframe : memExcept s.base (blockLength x) s (s.storeBytes s.base (s.regBlock x)) :=
    State.regBlock_length s x ▸ memExcept_storeBytes s s.base (s.regBlock x)
  exact ⟨_, (exec_ldMemVx_eq s x).trans (rangeChecked_inside hin), fun _ hr => read_storeRegBlock hm hlast hr, hframe,
    sameExcept_storeBytes s _ _⟩

/-! ## Loads (R199) -/

/-- After Fx65 a register of the block holds the byte at its own place, and a register above it what it held. -/
theorem reg_loadRegs_block (s : State) (x r : Reg) : (s.loadRegs s.base (blockLength x)).reg r =
    if r.toNat ≤ x.toNat then s.read (s.base + r.toNat) else s.reg r := by
  rw [State.reg_loadRegs s _ _ (blockLength_le x)]
  simp only [blockLength, Nat.lt_succ_iff]

/-- Settles O41: inside memory Fx65 is one load of the block V0 to Vx. -/
theorem registerBlockIsLoaded : Obligations.RegisterBlockIsLoaded := by
  refine ⟨readsAs_row 34 rfl (by decide), fun x s hlast => ?_⟩
  have hin : inRange s.base (blockLength x) = true := (inRange_blockLength _ x).2 hlast
  exact ⟨_, (exec_ldVxMem_eq s x).trans (rangeChecked_inside hin),
    fun r hr => (reg_loadRegs_block s x r).trans (if_pos hr),
    fun r hr => (reg_loadRegs_block s x r).trans (if_neg (Nat.not_le.2 hr)), sameExcept_loadRegs s _ _⟩

end Sys2Proof.Safety
end

section
/-!
PROOFS. The framebuffer's three operations (R210 to R214) and the two display instructions (R215, R216). What a sprite toggles
is first told row by row, by words, and then pixel by pixel, by `covers`.
-/

namespace Sys2Proof.Safety

open Sys2Proof.Machine

/-! ## Pixels as bits of rows (R33) -/

theorem pixel_eq_getMsbD (f : Framebuffer) {r : Nat} (c : Nat) (hr : r < 32) : f.pixel r c = f[r].getMsbD c := dif_pos hr

/-- Some bit is set, the bits counted from the left as the screen's columns are (R33). -/
theorem ne_zero_iff_getMsbD {w : Nat} {b : BitVec w} : b ≠ 0 ↔ ∃ j, b.getMsbD j = true := by
  refine ⟨fun hb => ?_, fun ⟨j, hj⟩ hb => by simp [hb] at hj⟩
  by_contra! hclear
  exact hb (BitVec.eq_of_getMsbD_eq fun j _ => by simp [hclear j])

/-! ## One byte of a sprite (R212) -/

/-- Column `c` of the screen takes the byte's bit that stands as many places right of column `x`, around the edge. -/
theorem spriteMask_getMsbD (x : Nat) (b : Byte) {c : Nat} (hc : c < 64) :
    (spriteMask x b).getMsbD c = b.getMsbD ((c + (64 - x % 64)) % 64) := by
  have hshifted (j : Nat) : ((b.setWidth 64) <<< 56).getMsbD j = b.getMsbD j := by
    rw [BitVec.getMsbD_shiftLeft, BitVec.getMsbD_setWidth]
    simp
  rw [spriteMask, BitVec.getMsbD_rotateRight, hshifted, hshifted, ← apply_ite b.getMsbD, decide_eq_true hc, Bool.true_and]
  congr 1
  split <;> omega

theorem spriteMask_getMsbD_iff (x : Nat) (b : Byte) (c : Nat) :
    (spriteMask x b).getMsbD c = true ↔ ∃ j < 8, b.getLsbD (7 - j) = true ∧ c = (x + j) % 64 := by
  constructor
  · intro hbit
    have hc : c < 64 := BitVec.lt_of_getMsbD hbit
    rw [spriteMask_getMsbD x b hc, BitVec.getMsbD_eq_getLsbD, Bool.and_eq_true, decide_eq_true_eq] at hbit
    exact ⟨_, hbit.1, hbit.2, by omega⟩
  · rintro ⟨j, hj, hbit, rfl⟩
    have hback : ((x + j) % 64 + (64 - x % 64)) % 64 = j := by omega
    rw [spriteMask_getMsbD x b (Nat.mod_lt _ (by decide)), hback, BitVec.getMsbD_eq_getLsbD, decide_eq_true hj, hbit]
    rfl

/-! ## Covered pixels (R212) -/

theorem covers_nil (x y r c : Nat) : ¬ covers x y [] r c := fun ⟨_, _, hk, _⟩ => absurd hk (Nat.not_lt_zero _)

/-- The first byte covers pixels of its own row, the others are a sprite drawn one row lower. -/
theorem covers_cons {x y : Nat} {b : Byte} {bs : List Byte} {r c : Nat} : covers x y (b :: bs) r c ↔
    (r = y % 32 ∧ (spriteMask x b).getMsbD c = true) ∨ covers x (y + 1) bs r c := by
  rw [spriteMask_getMsbD_iff]
  constructor
  · rintro ⟨k, j, hk, hj, hbit, hr, hc⟩
    cases k with
    | zero => exact .inl ⟨hr, j, hj, hbit, hc⟩
    | succ k => exact .inr ⟨k, j, Nat.lt_of_succ_lt_succ hk, hj, hbit, by rw [hr]; congr 1; omega, hc⟩
  · rintro (⟨hr, j, hj, hbit, hc⟩ | ⟨k, j, hk, hj, hbit, hr, hc⟩)
    · exact ⟨0, j, Nat.succ_pos _, hj, hbit, hr, hc⟩
    · exact ⟨k + 1, j, Nat.succ_lt_succ hk, hj, hbit, by rw [hr]; congr 1; omega, hc⟩

/-- A sprite of at most 32 rows does not come back to the row of its first byte. -/
theorem covers_row_ne {x y : Nat} {bs : List Byte} {r c : Nat} (hlen : bs.length < 32) (h : covers x (y + 1) bs r c) :
    r ≠ y % 32 := by
  obtain ⟨k, -, hk, -, -, rfl, -⟩ := h
  omega

theorem row_of_covers {x y : Nat} {bytes : List Byte} {r c : Nat} (h : covers x y bytes r c) : r < 32 := by
  obtain ⟨k, -, -, -, -, rfl, -⟩ := h
  exact Nat.mod_lt _ (by decide)

/-- A sprite covers some pixel unless all its bytes are 0. -/
theorem exists_covers_iff (x y : Nat) (bytes : List Byte) :
    (∃ r c, covers x y bytes r c) ↔ ∃ b ∈ bytes, b ≠ 0 := by
  constructor
  · rintro ⟨r, c, k, j, hk, -, hbit, -⟩
    rw [List.getD_eq_getElem _ _ hk] at hbit
    exact ⟨bytes[k], List.getElem_mem hk, fun hzero => by simp [hzero] at hbit⟩
  · rintro ⟨b, hb, hne⟩
    obtain ⟨k, hk, rfl⟩ := List.getElem_of_mem hb
    obtain ⟨j, hbit⟩ := ne_zero_iff_getMsbD.1 hne
    rw [BitVec.getMsbD_eq_getLsbD, Bool.and_eq_true, decide_eq_true_eq] at hbit
    exact ⟨_, _, k, j, hk, hbit.1, by rw [List.getD_eq_getElem _ _ hk]; exact hbit.2, rfl, rfl⟩

/-! ## What drawing does to a row (R212) -/

/-- The pixels of row `r` that a sprite drawn at column `x`, row `y` toggles, as a word. -/
def toggledRow (x r : Nat) : Nat → List Byte → PixelRow
  | _, [] => 0
  | y, b :: bs => (if y % 32 = r then spriteMask x b else 0) ^^^ toggledRow x r (y + 1) bs

/-- Drawing XORs each row with what the sprite toggles in it, however long the sprite is. -/
theorem drawSprite_row (x y : Nat) (bytes : List Byte) (f : Framebuffer) {r : Nat} (hr : r < 32) :
    (drawSprite x y bytes f).1[r] = f[r] ^^^ toggledRow x r y bytes := by
  induction bytes generalizing y f with
  | nil => exact BitVec.xor_zero.symm
  | cons b bs ih =>
    rw [drawSprite, toggledRow, ih, Vector.getElem_set, ← BitVec.xor_assoc]
    split
    next h => subst h; rfl
    next h => exact congrArg (· ^^^ _) BitVec.xor_zero.symm

/-- Two draws of one sprite undo each other, because XOR does (R217). -/
theorem drawSprite_twice (x y : Nat) (bytes : List Byte) (f : Framebuffer) :
    (drawSprite x y bytes (drawSprite x y bytes f).1).1 = f := by
  ext r hr : 1
  rw [drawSprite_row _ _ _ _ hr, drawSprite_row _ _ _ _ hr, BitVec.xor_assoc, BitVec.xor_self, BitVec.xor_zero]

/-- As no two bytes of the sprite share a row, a bit is toggled exactly where the sprite covers it. -/
theorem toggledRow_getMsbD_iff {x y : Nat} {bytes : List Byte} (hlen : bytes.length ≤ 32) (r c : Nat) :
    (toggledRow x r y bytes).getMsbD c = true ↔ covers x y bytes r c := by
  induction bytes generalizing y with
  | nil => simp [toggledRow, covers_nil]
  | cons b bs ih =>
    rw [covers_cons, ← ih (Nat.le_of_succ_le hlen), toggledRow, BitVec.getMsbD_xor]
    by_cases h : r = y % 32
    · have hrest : (toggledRow x r (y + 1) bs).getMsbD c = false := by
        rw [← Bool.not_eq_true, ih (Nat.le_of_succ_le hlen)]
        exact fun hcov => covers_row_ne hlen hcov h
      simp [h.symm, hrest]
    · simp [h, Ne.symm h]

/-- The pixels a sprite covers are toggled, the others are left alone (R212). -/
theorem drawSprite_pixel {x y : Nat} {bytes : List Byte} (f : Framebuffer) (hlen : bytes.length ≤ 32) {r : Nat} (c : Nat)
    (hr : r < 32) :
    (covers x y bytes r c → (drawSprite x y bytes f).1.pixel r c = !f.pixel r c) ∧
    (¬ covers x y bytes r c → (drawSprite x y bytes f).1.pixel r c = f.pixel r c) := by
  rw [← toggledRow_getMsbD_iff hlen, pixel_eq_getMsbD _ c hr, pixel_eq_getMsbD _ c hr, drawSprite_row _ _ _ _ hr,
    BitVec.getMsbD_xor]
  exact ⟨fun h => by rw [h, Bool.xor_true], fun h => by rw [Bool.eq_false_of_not_eq_true h, Bool.xor_false]⟩

/-! ## The collision report (R213) -/

/-- A collision is a covered pixel that was 1: each byte meets the row as it was before the draw. -/
theorem drawSprite_collides_iff {x y : Nat} {bytes : List Byte} (f : Framebuffer) (hlen : bytes.length ≤ 32) :
    (drawSprite x y bytes f).2 = true ↔ ∃ r c, covers x y bytes r c ∧ f.pixel r c = true := by
  induction bytes generalizing y f with
  | nil => simp [covers_nil]
  | cons b bs ih =>
    have hy : y % 32 < 32 := Nat.mod_lt y (by decide)
    have hfirst : (f[y % 32] &&& spriteMask x b) ≠ 0 ↔
        ∃ r c, (r = y % 32 ∧ (spriteMask x b).getMsbD c = true) ∧ f.pixel r c = true := by
      rw [ne_zero_iff_getMsbD]
      simp [pixel_eq_getMsbD f _ hy, and_comm]
    have hrest (r c : Nat) (hcov : covers x (y + 1) bs r c) :
        Framebuffer.pixel (f.set (y % 32) (f[y % 32] ^^^ spriteMask x b) hy) r c = f.pixel r c := by
      have hr := row_of_covers hcov
      rw [pixel_eq_getMsbD _ c hr, pixel_eq_getMsbD _ c hr, Vector.getElem_set_ne _ _ (covers_row_ne hlen hcov).symm]
    simp only [covers_cons, or_and_right, exists_or, ← hfirst]
    rw [drawSprite, Bool.or_eq_true, bne_iff_ne, ih _ (Nat.le_of_succ_le hlen)]
    exact or_congr_right (exists₂_congr fun r c => and_congr_right fun hcov => by rw [hrest r c hcov])

/-! ## The statements on sprites -/

/-- Settles O45: fifteen rows do not wrap onto one another. -/
theorem spriteTogglesTheCoveredPixels : Obligations.SpriteTogglesTheCoveredPixels := fun _ _ bytes f hlen =>
  have hlen : bytes.length ≤ 32 := hlen.trans (by decide)
  ⟨fun _ c hr _ => drawSprite_pixel f hlen c hr, drawSprite_collides_iff f hlen⟩

/-- Settles O47: after a draw onto clear pixels every covered pixel is 1, so the second draw collides wherever it covers. -/
theorem drawingTwiceRestores : Obligations.DrawingTwiceRestores := by
  intro x y bytes f hlen
  have hlen : bytes.length ≤ 32 := hlen.trans (by decide)
  refine ⟨drawSprite_twice x y bytes f, fun hclear => ?_⟩
  have hset (r c : Nat) (hcov : covers x y bytes r c) : (drawSprite x y bytes f).1.pixel r c = true := by
    rw [(drawSprite_pixel f hlen c (row_of_covers hcov)).1 hcov, hclear r c hcov, Bool.not_false]
  rw [drawSprite_collides_iff _ hlen, ← exists_covers_iff x y bytes]
  exact exists₂_congr fun r c => and_iff_left_of_imp (hset r c)

/-- Settles O46: row 23 reads the word, and inside memory the handler is one draw of the bytes at I. -/
theorem drawPutsTheCollisionInTheFlag : Obligations.DrawPutsTheCollisionInTheFlag := by
  refine ⟨readsAs_row 23 rfl (by decide), fun x y n s hlast => ?_⟩
  have hin : inRange s.base n.toNat = true := (inRange_iff_highest _ _).2 hlast
  have hflag := State.draw_reg s (s.reg x).toNat (s.reg y).toNat (s.readBytes s.base n.toNat) vf
  rw [if_pos rfl] at hflag
  refine ⟨_, (exec_drw_eq s x y n).trans (rangeChecked_inside hin), rfl, hflag, ?_, regsExcept_draw s _ _ _,
    sameExcept_draw s _ _ _⟩
  rintro rfl
  exact ⟨fun _ _ => rfl, hflag⟩

/-! ## Clearing and reading out (R211, R214) -/

/-- Settles O44: 00E0 is the word of CLS, and the handler puts the cleared framebuffer in place of the old one. -/
theorem clearMakesEveryPixelZero : Obligations.ClearMakesEveryPixelZero :=
  ⟨decodeWord_encode (i := .cls) rfl, fun s => ⟨_, rfl, clearedFb_pixel, sameExcept_setFb s clearedFb⟩⟩

/-- Going through `m` rows of `n` columns is counting to `m * n`, with row and column as quotient and remainder. -/
theorem flatMap_rows_eq_map {α : Type} (g : Nat → Nat → α) (m : Nat) {n : Nat} (hn : 0 < n) :
    ((List.range m).flatMap fun r => (List.range n).map (g r)) =
      (List.range (m * n)).map fun k => g (k / n) (k % n) := by
  induction m with
  | zero => simp
  | succ m ih =>
    rw [List.range_succ, List.flatMap_append, ih, List.flatMap_singleton, Nat.succ_mul, List.range_add, List.map_append,
      List.map_map]
    congr 1
    refine List.map_congr_left fun c hc => ?_
    have hc : c < n := List.mem_range.1 hc
    rw [Function.comp_apply, Nat.add_comm, Nat.add_mul_div_right _ _ hn, Nat.div_eq_of_lt hc, Nat.zero_add,
      Nat.add_mul_mod_self_right, Nat.mod_eq_of_lt hc]

theorem render_eq_map (s : State) :
    s.render = (List.range 2048).map fun k => (k / 64, k % 64, s.fb.pixel (k / 64) (k % 64)) :=
  flatMap_rows_eq_map (fun r c => (r, c, s.fb.pixel r c)) 32 (n := 64) (by decide)

/-- Settles O48: the triples are 2048 in the order of `render_eq_map`. -/
theorem renderYieldsEveryPixelInOrder : Obligations.RenderYieldsEveryPixelInOrder := fun s => by
  rw [render_eq_map]
  exact ⟨by simp, fun k hk => by simp [hk]⟩

end Sys2Proof.Safety
end

section
/-!
PROOFS. The sound timer cannot be observed (R243, decision D27): no operation of a step reads it, so that what each one leaves
beside ST does not depend on ST, and one such operation after another does not either.
-/

namespace Sys2Proof.Safety

open Sys2Proof.Machine

/-! ## Operations whose outcome beside ST does not depend on ST -/

/-- What `f` answers, seen without ST, does not depend on ST. -/
def ignoresSt (f : State → Host.Outcome State Fault Refusal) : Prop :=
  ∀ (s : State) (b : Byte), mapNext (State.setSt · 0) (f (s.setSt b)) = mapNext (State.setSt · 0) (f s)

/-- An outcome with `g` run on its next state, if it has one: how `step`, `hostMoves` and `runWord` go on. -/
def followedBy (o : Host.Outcome State Fault Refusal) (g : State → Host.Outcome State Fault Refusal) :
    Host.Outcome State Fault Refusal :=
  match o with
  | .next t => g t
  | .fault r => .fault r
  | .refused r => .refused r

section
variable {f g : State → Host.Outcome State Fault Refusal}

/-- An operation that hands ST through unread ignores it. -/
theorem ignoresSt_of_commutes (h : ∀ s b, f (s.setSt b) = mapNext (State.setSt · b) (f s)) : ignoresSt f := by
  intro s b
  rw [h]
  cases f s <;> rfl

theorem ignoresSt.followedBy_erased (hg : ignoresSt g) (o : Host.Outcome State Fault Refusal) :
    mapNext (State.setSt · 0) (followedBy (mapNext (State.setSt · 0) o) g) = mapNext (State.setSt · 0) (followedBy o g) := by
  cases o with
  | next t => exact hg t 0
  | fault r => rfl
  | refused r => rfl

/-- What comes first leaves the same but for ST, and what follows cannot tell the difference. -/
theorem ignoresSt.followedBy (hf : ignoresSt f) (hg : ignoresSt g) : ignoresSt fun s => followedBy (f s) g := by
  intro s b
  rw [← hg.followedBy_erased (f (s.setSt b)), hf s b, hg.followedBy_erased]

end

/-! ## The operations that branch -/

section
variable (s : State) (b : Byte)

theorem skipIf_setSt (c : Bool) : (s.setSt b).skipIf c = (s.skipIf c).setSt b := by
  rw [State.skipIf_eq, State.skipIf_eq]; rfl

theorem loadRegs_setSt (a n : Nat) : (s.setSt b).loadRegs a n = (s.loadRegs a n).setSt b := by
  induction n with
  | zero => rfl
  | succ n ih => rw [State.loadRegs, State.loadRegs, ih]; rfl

theorem writeFlagged_setSt (x : Reg) (r c : Byte) : (s.setSt b).writeFlagged x r c = (s.writeFlagged x r c).setSt b := by
  simp only [State.writeFlagged, State.setSt_params]
  cases s.params.vfOrder <;> rfl

theorem waitKey_setSt (x : Reg) : (s.setSt b).waitKey x = (s.waitKey x).setSt b := by
  simp only [State.waitKey, State.setSt_raw]
  split <;> rfl

theorem skipOnKey_setSt (wanted : Bool) (x : Reg) :
    skipOnKey wanted x (s.setSt b) = mapNext (State.setSt · b) (skipOnKey wanted x s) := by
  have hcheck : checkIfPressed (s.setSt b).params.uqCap ((s.setSt b).reg x) (s.setSt b) =
      checkIfPressed s.params.uqCap (s.reg x) s := rfl
  rw [skipOnKey, hcheck, skipOnKey]
  cases checkIfPressed s.params.uqCap (s.reg x) s with
  | none => rfl
  | some c => exact congrArg Host.Outcome.next (skipIf_setSt (s.setInput c.uq c.raw c.exitFlag) b _)

/-- A choice between two states hands ST through if both do. -/
theorem next_ite_setSt {p : Prop} [Decidable p] {t u t' u' : State} (ht : t' = t.setSt b) (hu : u' = u.setSt b) :
    (.next (if p then t' else u') : Host.Outcome State Fault Refusal) =
      mapNext (State.setSt · b) (.next (if p then t else u)) := by
  rw [ht, hu, ← apply_ite (State.setSt · b)]; rfl

end

/-! ## Instructions -/

/-- Every instruction but LD ST,Vx hands ST through unread. -/
theorem exec_setSt {i : Instr} (hst : Part.st ∉ mayWrite i) (s : State) (b : Byte) :
    exec i (s.setSt b) = mapNext (State.setSt · b) (exec i s) := by
  cases i
  case ldStVx => exact absurd (by simp [mayWrite]) hst
  case seImm | sneImm | seReg | sneReg => exact congrArg Host.Outcome.next (skipIf_setSt s b _)
  case addReg | subReg | shr | subn | shl => exact congrArg Host.Outcome.next (writeFlagged_setSt s b _ _ _)
  case skp | sknp => exact skipOnKey_setSt s b _ _
  case ldVxK x => exact congrArg Host.Outcome.next (waitKey_setSt s b x)
  case call | ret | drw | ldB | ldMemVx => exact next_ite_setSt b rfl rfl
  case ldVxMem => exact next_ite_setSt b (loadRegs_setSt s b _ _) rfl
  all_goals rfl

theorem exec_ignoresSt (i : Instr) : ignoresSt (exec i) := by
  by_cases hst : Part.st ∈ mayWrite i
  · cases i
    case ldStVx x => exact fun s b => rfl
    all_goals simp [mayWrite] at hst
  · exact ignoresSt_of_commutes (exec_setSt hst)

/-! ## The tick, the host's moves and the step -/

/-- ST counts down by itself (R126). -/
theorem finishTick_ignoresSt : ignoresSt fun s => .next s.finishTick := by
  intro s b
  refine congrArg Host.Outcome.next ?_
  simp only [State.finishTick_eq, apply_ite (State.setSt · 0)]
  rfl

theorem runWord_ignoresSt (w : Word) : ignoresSt (runWord w) := by
  intro s b
  cases hw : decodeWord w with
  | error e => rw [runWord_illegal hw, runWord_illegal hw]; rfl
  | ok i =>
    rw [runWord_decoded hw, runWord_decoded hw]
    exact (exec_ignoresSt i).followedBy finishTick_ignoresSt s b

theorem tick_ignoresSt : ignoresSt tick := by
  intro s b
  by_cases hhalted : s.halted = true
  · rw [haltedTickChangesNothing s hhalted, haltedTickChangesNothing (s.setSt b) hhalted]; rfl
  have hrun : s.halted = false := Bool.eq_false_iff.2 hhalted
  rcases Nat.lt_or_ge 0xFFE s.pc.toNat with hpc | hpc
  · rw [tick_of_pc_pastMemory hrun hpc, tick_of_pc_pastMemory (s := s.setSt b) hrun hpc]; rfl
  · rw [tick_of_fetches ⟨hrun, hpc⟩, tick_of_fetches (s := s.setSt b) ⟨hrun, hpc⟩]
    exact runWord_ignoresSt s.fetchWord (handlerStart s) b

theorem load_ignoresSt (image : List Byte) : ignoresSt (State.load image) := by
  refine ignoresSt_of_commutes fun s b => ?_
  simp only [State.load, apply_ite (mapNext _)]
  rfl

/-- Of the host's moves only its reset writes ST, and that to zero. -/
theorem hostMoves_ignoresSt (ms : List HostMove) : ignoresSt (hostMoves ms) := by
  induction ms with
  | nil => exact fun s b => rfl
  | cons m ms ih =>
    cases m with
    | reset => exact fun s b => rfl
    | load image => exact (load_ignoresSt image).followedBy ih
    | push e => exact fun s b => ih (s.pushRaw e) b
    | tick c => exact fun s b => rfl

theorem step_ignoresSt : ignoresSt step :=
  fun s b => (hostMoves_ignoresSt s.host).followedBy tick_ignoresSt s b

/-- Settles O59: with either value of ST the step answers, but for ST, what it answers from `s`. -/
theorem soundTimerIsUnobservable : Obligations.SoundTimerIsUnobservable :=
  fun s a b => (step_ignoresSt s a).trans (step_ignoresSt s b).symm

end Sys2Proof.Safety
end

section
/-!
PROOFS. The input controller's key check (R231, R232, R238) and the key instructions SKP, SKNP and LD Vx,K (R235 to R237), at every
capacity of the queue (U8, decision D16).
-/

namespace Sys2Proof.Safety

open Sys2Proof.Machine

/-! ## Phase 1: the queue -/

theorem keyMatches_iff {e : Byte} {k : Nibble} : keyMatches e k = true ↔ k.setWidth 8 = e := beq_iff_eq

theorem afterMatch_append {e : Byte} {pre : List Nibble} (post : List Nibble) {k : Nibble} (hpre : ∀ q ∈ pre, q.setWidth 8 ≠ e)
    (hk : k.setWidth 8 = e) : afterMatch e (pre ++ k :: post) = some post := by
  induction pre with
  | nil => exact if_pos (keyMatches_iff.2 hk)
  | cons q pre ih =>
    obtain ⟨hq, hpre⟩ := List.forall_mem_cons.1 hpre
    exact (if_neg (mt keyMatches_iff.1 hq)).trans (ih hpre)

theorem afterMatch_eq_none_iff {e : Byte} {uq : List Nibble} : afterMatch e uq = none ↔ ∀ q ∈ uq, q.setWidth 8 ≠ e := by
  induction uq with
  | nil => simp [afterMatch]
  | cons k ks ih =>
    rw [afterMatch, List.forall_mem_cons, ← ih]
    by_cases hk : k.setWidth 8 = e
    · simp [if_pos (keyMatches_iff.2 hk), hk]
    · simp [if_neg (mt keyMatches_iff.1 hk), hk]

theorem checkIfPressed_of_queued {e : Byte} {s : State} {rest : List Nibble} (cap : Option Nat)
    (h : afterMatch e s.uq = some rest) : checkIfPressed cap e s = some ⟨true, rest, s.raw, s.exitFlag⟩ := by
  rw [checkIfPressed, h]

theorem checkIfPressed_of_not_queued {e : Byte} {s : State} (cap : Option Nat) (h : ∀ q ∈ s.uq, q.setWidth 8 ≠ e) :
    checkIfPressed cap e s = drainRaw cap e s.raw s.uq s.exitFlag := by
  rw [checkIfPressed, afterMatch_eq_none_iff.2 h]

/-! ## Phase 2: the stream -/

/-- Room for one more key and then for the rest is room for them all (R35, U8). -/
theorem roomFor_succ_iff {cap : Option Nat} {uq : List Nibble} {m : Nat} :
    roomFor cap uq.length (m + 1) ↔ queueIsFull cap uq = false ∧ roomFor cap (uq.length + 1) m := by
  cases cap with
  | none => simp [roomFor]
  | some c => simp [roomFor, queueIsFull]; omega

/-- Events without a match are consumed: their keys go to the queue, if it has room for them, and an Exit among them sets the
flag (R231, D14). -/
theorem drainRaw_append {cap : Option Nat} {e : Byte} {pre : List RawEvent} (post : List RawEvent) {uq : List Nibble} (ef : Bool)
    (hpre : ∀ q ∈ keysOf pre, q.setWidth 8 ≠ e) (hroom : roomFor cap uq.length (keysOf pre).length) :
    drainRaw cap e (pre ++ post) uq ef = drainRaw cap e post (uq ++ keysOf pre) (ef || decide (RawEvent.exit ∈ pre)) := by
  induction pre generalizing uq ef with
  | nil => simp [keysOf]
  | cons ev pre ih =>
    cases ev with
    | exit => exact (ih true hpre hroom).trans (by simp [keysOf])
    | other => exact (ih ef hpre hroom).trans (by simp [keysOf])
    | key k =>
      obtain ⟨hk, hpre⟩ := List.forall_mem_cons.1 hpre
      obtain ⟨hfree, hroom⟩ := roomFor_succ_iff.1 hroom
      rw [List.cons_append, drainRaw, if_neg (mt keyMatches_iff.1 hk), hfree, if_neg Bool.false_ne_true,
        ih ef hpre (by simpa using hroom)]
      simp [keysOf]

/-- Where the keys before a match do not fit, the check stops at the first one that finds the queue full (U8). -/
theorem drainRaw_of_no_room {cap : Option Nat} {e : Byte} {pre : List RawEvent} (post : List RawEvent) {uq : List Nibble}
    (ef : Bool) (hpre : ∀ q ∈ keysOf pre, q.setWidth 8 ≠ e) (hroom : ¬ roomFor cap uq.length (keysOf pre).length) :
    drainRaw cap e (pre ++ post) uq ef = none := by
  induction pre generalizing uq ef with
  | nil => exact absurd (.inl rfl) hroom
  | cons ev pre ih =>
    cases ev with
    | exit => exact ih true hpre hroom
    | other => exact ih ef hpre hroom
    | key k =>
      obtain ⟨hk, hpre⟩ := List.forall_mem_cons.1 hpre
      rw [List.cons_append, drainRaw, if_neg (mt keyMatches_iff.1 hk)]
      split
      · rfl
      · next hfree =>
        refine ih ef hpre fun hrest => hroom (roomFor_succ_iff.2 ⟨Bool.eq_false_iff.2 hfree, ?_⟩)
        simpa using hrest

/-- A draining that misses has kept every key (R231). -/
theorem uq_of_drainRaw_miss {cap : Option Nat} {e : Byte} {raw : List RawEvent} {uq : List Nibble} {ef : Bool} {c : KeyCheck}
    (h : drainRaw cap e raw uq ef = some c) (hmiss : c.hit = false) : c.uq = uq ++ keysOf raw := by
  induction raw generalizing uq ef with
  | nil => cases h; exact (List.append_nil uq).symm
  | cons ev raw ih =>
    cases ev with
    | exit | other => exact ih h
    | key k =>
      rw [drainRaw] at h
      split at h
      · cases h; cases hmiss
      · split at h
        · cases h
        · exact (ih h).trans (List.append_assoc uq [k] (keysOf raw))

/-! ## The whole check -/

/-- A check that misses where its keys fit drains the stream into the queue (R231). -/
theorem checkIfPressed_miss {cap : Option Nat} {e : Byte} {s : State} (huq : ∀ q ∈ s.uq, q.setWidth 8 ≠ e)
    (hraw : ∀ q ∈ keysOf s.raw, q.setWidth 8 ≠ e) (hroom : roomFor cap s.uq.length (keysOf s.raw).length) :
    checkIfPressed cap e s =
      some ⟨false, s.uq ++ keysOf s.raw, [], s.exitFlag || decide (RawEvent.exit ∈ s.raw)⟩ := by
  have hdrain := drainRaw_append [] s.exitFlag hraw hroom
  rw [List.append_nil] at hdrain
  rw [checkIfPressed_of_not_queued cap huq, hdrain]; rfl

/-- Settles O49: the two phases of the check, the second one split where the unmatched events end. -/
theorem keyCheckConsumesUpToTheMatch : Obligations.KeyCheckConsumesUpToTheMatch := by
  refine ⟨?queued, ?inStream, ?missed, ?noRoom⟩
  case queued =>
    intro cap e s pre post k huq hk hpre
    exact checkIfPressed_of_queued cap (huq ▸ afterMatch_append post hpre hk)
  case inStream =>
    intro cap e s pre post k huq hraw hk hpre hroom
    rw [checkIfPressed_of_not_queued cap huq, hraw, drainRaw_append _ _ hpre hroom, drainRaw, if_pos (keyMatches_iff.2 hk)]
  case missed => exact fun cap e s => checkIfPressed_miss
  case noRoom =>
    intro cap e s pre post huq hraw hpre hroom
    rw [checkIfPressed_of_not_queued cap huq, hraw, drainRaw_of_no_room _ _ hpre hroom]

/-! ## A key that was passed over (R238) -/

theorem mem_keysOf {k : Nibble} {raw : List RawEvent} : k ∈ keysOf raw ↔ RawEvent.key k ∈ raw := by
  induction raw with
  | nil => simp [keysOf]
  | cons ev raw ih => cases ev <;> simp [keysOf, ih]

theorem uq_of_checkIfPressed_miss {cap : Option Nat} {e : Byte} {s : State} {c : KeyCheck}
    (h : checkIfPressed cap e s = some c) (hmiss : c.hit = false) : c.uq = s.uq ++ keysOf s.raw := by
  unfold checkIfPressed at h
  split at h
  · cases h; cases hmiss
  · exact uq_of_drainRaw_miss h hmiss

theorem checkIfPressed_hits_queued_key {cap : Option Nat} {s : State} {k : Nibble} (h : k ∈ s.uq) :
    ∃ d, checkIfPressed cap (k.setWidth 8) s = some d ∧ d.hit = true := by
  cases hmatch : afterMatch (k.setWidth 8) s.uq with
  | none => exact absurd rfl (afterMatch_eq_none_iff.1 hmatch k h)
  | some rest => exact ⟨_, checkIfPressed_of_queued cap hmatch, rfl⟩

/-- Settles O52: after a miss every pending key is in the queue, where the first phase finds it. -/
theorem unmatchedKeyStaysAvailable : Obligations.UnmatchedKeyStaysAvailable := by
  intro cap e s c k hcheck hmiss hpending
  refine checkIfPressed_hits_queued_key ?_
  rw [State.setInput_uq, uq_of_checkIfPressed_miss hcheck hmiss, List.mem_append, mem_keysOf]
  exact hpending

/-! ## SKP and SKNP (R235, R236) -/

section
variable {x : Reg} {s : State}

theorem skipOnKey_of_result {c : KeyCheck} (wanted : Bool) (h : checkIfPressed s.params.uqCap (s.reg x) s = some c) :
    skipOnKey wanted x s = .next ((s.setInput c.uq c.raw c.exitFlag).skipIf (c.hit == wanted)) := by
  rw [skipOnKey, h]

theorem skipOnKey_of_no_result (wanted : Bool) (h : checkIfPressed s.params.uqCap (s.reg x) s = none) :
    skipOnKey wanted x s = .refused .queueFull := by
  rw [skipOnKey, h]

/-- A skip after a key check leaves what the check leaves, and moves the pc exactly on the result it wants. -/
theorem skipOnKey_answers {c : KeyCheck} (wanted : Bool) (h : checkIfPressed s.params.uqCap (s.reg x) s = some c) :
    ∃ t, skipOnKey wanted x s = .next t ∧ t.pc = (if c.hit = wanted then s.pc + 2 else s.pc) ∧ t.uq = c.uq ∧
      t.raw = c.raw ∧ t.exitFlag = c.exitFlag ∧ noFaultNoFlag s t := by
  refine ⟨_, skipOnKey_of_result wanted h, ?_, State.skipIf_uq _ _, State.skipIf_raw _ _, State.skipIf_exitFlag _ _,
    noFaultNoFlag_skipIf (s.setInput c.uq c.raw c.exitFlag) _⟩
  rw [State.skipIf_pc]; simp only [beq_iff_eq, State.setInput_pc]

end

/-- Settles O50: rows 24 and 25, each a skip on one of the two results of the check. -/
theorem keySkipsFollowTheCheck : Obligations.KeySkipsFollowTheCheck := by
  refine ⟨readsAs_row 24 rfl (by decide), readsAs_row 25 rfl (by decide), fun x s =>
    ⟨fun c hcheck => ⟨skipOnKey_answers true hcheck, ?_⟩, fun hcap => ?_, fun hnone =>
      ⟨skipOnKey_of_no_result true hnone, skipOnKey_of_no_result false hnone⟩⟩⟩
  · obtain ⟨t, hexec, hpc, hrest⟩ := skipOnKey_answers false hcheck
    exact ⟨t, hexec, by rw [hpc]; cases c.hit <;> rfl, hrest⟩
  · rw [hcap]; exact checkIfPressed_unbounded (s.reg x) s

/-- A key code is below 16, and the expected value is not masked (R232, D12). -/
theorem setWidth_ne_of_ge {e : Byte} (he : 16 ≤ e.toNat) (k : Nibble) : k.setWidth 8 ≠ e := by
  rintro rfl
  have hk := k.isLt
  rw [BitVec.toNat_setWidth] at he
  omega

/-- Settles O51: no key matches, so that both instructions see the check miss. -/
theorem noKeyAboveFifteen : Obligations.NoKeyAboveFifteen := by
  intro x s hx hroom
  have hcheck := checkIfPressed_miss (fun q _ => setWidth_ne_of_ge hx q) (fun q _ => setWidth_ne_of_ge hx q) hroom
  obtain ⟨t, hskp, hpc, huq, hraw, -⟩ := skipOnKey_answers true hcheck
  obtain ⟨u, hsknp, hpc', huq', hraw', -⟩ := skipOnKey_answers false hcheck
  exact ⟨⟨t, hskp, hpc, huq, hraw⟩, ⟨u, hsknp, hpc', huq', hraw'⟩⟩

/-! ## LD Vx,K (R233, R237) -/

section
variable {s : State} {es : List RawEvent}

theorem waitKey_of_key {k : Nibble} (h : s.raw = .key k :: es) (x : Reg) :
    s.waitKey x = (s.setInput s.uq es s.exitFlag).setReg x (k.setWidth 8) := by
  rw [State.waitKey, h]

theorem waitKey_of_other (h : s.raw = .other :: es) (x : Reg) : s.waitKey x = (s.setInput s.uq es s.exitFlag).rewind := by
  rw [State.waitKey, h]

theorem waitKey_of_exit (h : s.raw = .exit :: es) (x : Reg) : s.waitKey x = (s.setInput s.uq es true).rewind := by
  rw [State.waitKey, h]

end

theorem sameExcept_rewind (s : State) : sameExcept [.pc] s s.rewind := sameExcept_setPc s _

/-- What Fx0A does to the stream and the flag leaves the queue alone. -/
theorem sameExcept_setInput_uq (s : State) (es : List RawEvent) (ef : Bool) :
    sameExcept [.raw, .exitFlag] s (s.setInput s.uq es ef) := (sameExcept_setInput s s.uq es ef).tail rfl

theorem sameExcept_setInput_raw (s : State) (es : List RawEvent) : sameExcept [.raw] s (s.setInput s.uq es s.exitFlag) :=
  ((sameExcept_setInput_uq s es s.exitFlag).mono (by decide)).tail (p := .exitFlag) rfl

/-- Settles O53: row 27, and one equation of the wait for each kind of first event. -/
theorem keyWaitTakesOneEvent : Obligations.KeyWaitTakesOneEvent := by
  refine ⟨readsAs_row 27 rfl (by decide), fun x s => ⟨?nothing, ?key, ?other, ?exit⟩⟩
  case nothing =>
    intro h
    exact ⟨_, congrArg Host.Outcome.next (waitKey_of_no_event h x), rfl, sameExcept_rewind s⟩
  case key =>
    intro k es h
    have hframe : sameExcept [.regs, .raw] s ((s.setInput s.uq es s.exitFlag).setReg x (k.setWidth 8)) :=
      ((sameExcept_setInput_raw s es).mono (by decide)).trans ((sameExcept_setReg _ x _).mono (by decide))
    have hvalue : (BitVec.setWidth 8 k).toNat = k.toNat := by simp; omega
    exact ⟨_, congrArg Host.Outcome.next (waitKey_of_key h x), by rw [State.reg_setReg_self, hvalue], rfl,
      regsExcept_setReg (s.setInput s.uq es s.exitFlag) x _, hframe⟩
  case other =>
    intro es h
    exact ⟨_, congrArg Host.Outcome.next (waitKey_of_other h x), rfl, rfl,
      ((sameExcept_setInput_raw s es).mono (by decide)).trans ((sameExcept_rewind _).mono (by decide))⟩
  case exit =>
    intro es h
    exact ⟨_, congrArg Host.Outcome.next (waitKey_of_exit h x), rfl, rfl, rfl,
      ((sameExcept_setInput_uq s es true).mono (by decide)).trans ((sameExcept_rewind _).mono (by decide))⟩

end Sys2Proof.Safety
end

section
/-!
PROOFS. The three instructions that reach the timers (R241 to R243). The decrement is the tick's, and comes after them (decision
D9): `tickEndsWithTimersAndRender`.
-/

namespace Sys2Proof.Safety

open Sys2Proof.Machine

/-- Settles O55: rows 26, 28 and 29, each one write, of a register or of a timer. -/
theorem timerInstructionsMoveTheTimers : Obligations.TimerInstructionsMoveTheTimers :=
  ⟨readsAs_row 26 rfl (by decide), readsAs_row 28 rfl (by decide), readsAs_row 29 rfl (by decide), fun x s =>
    ⟨⟨_, rfl, State.reg_setReg_self s x s.dt, rfl, fun h => State.reg_setReg_ne s s.dt h.symm, rfl, rfl⟩,
     ⟨_, rfl, rfl, rfl, rfl, rfl, rfl⟩,
     ⟨_, rfl, rfl, rfl, rfl, rfl, rfl⟩⟩⟩

end Sys2Proof.Safety
end

section
/-!
PROOFS. Exceptions (R261 to R264, decision D19): which instruction raises which fault, and that a raise is all it does then; which
steps are refused (R293, U8, U12, U13), and that none answers a fault outcome.
-/

namespace Sys2Proof.Safety

open Sys2Proof.Machine

/-! ## The faults of instructions (R261, R262) -/

/-- The faults an instruction raises, each with the condition it is raised on (`exec_halts` says that there are no others). -/
inductive Raises (s : State) : Instr → Fault → Prop
  | ret (hsp : s.sp = 0) : Raises s .ret (.stackUnderflow s.pc0)
  | call (aaa : Imm12) (hsp : s.sp = 15) : Raises s (.call aaa) (.stackOverflow s.pc0)
  | drw (x y : Reg) (n : Nibble) (hout : ¬ inRange s.base n.toNat = true) : Raises s (.drw x y n) s.rangeFault
  | ldB (x : Reg) (hout : ¬ inRange s.base 3 = true) : Raises s (.ldB x) s.rangeFault
  | ldMemVx (x : Reg) (hout : ¬ inRange s.base (blockLength x) = true) : Raises s (.ldMemVx x) s.rangeFault
  | ldVxMem (x : Reg) (hout : ¬ inRange s.base (blockLength x) = true) : Raises s (.ldVxMem x) s.rangeFault

theorem exec_keeps_halted {i : Instr} {s t : State} (h : exec i s = .next t) (hi : Part.halted ∉ mayWrite i) :
    t.halted = s.halted := by
  obtain ⟨hframe, -, -⟩ := exec_keepsFrame h
  exact hframe .halted hi

/-- A range check halts a running core only by failing, when what it guards raises nothing. -/
theorem rangeChecked_halts {s t u : State} {n : Nat} (hu : u.halted = false) (h : rangeChecked s n u = .next t)
    (ht : t.halted = true) : ¬ inRange s.base n = true ∧ t = s.raise s.rangeFault := by
  by_cases hin : inRange s.base n = true
  · rw [rangeChecked_inside hin] at h
    cases h
    exact absurd ht (by simp [hu])
  · rw [rangeChecked_outside hin] at h
    cases h
    exact ⟨hin, rfl⟩

/-- An instruction that halts a running core has raised one of the faults of `Raises`, and done nothing else. -/
theorem exec_halts {i : Instr} {s t : State} (hrun : s.halted = false) (h : exec i s = .next t) (ht : t.halted = true) :
    ∃ f, Raises s i f ∧ t = s.raise f := by
  cases i
  case ret =>
    by_cases hsp : s.sp = 0
    · rw [exec_ret_of_empty hsp] at h
      cases h
      exact ⟨_, .ret hsp, rfl⟩
    · rw [exec_ret_of_nonempty hsp] at h
      cases h
      exact absurd ht (by simp [hrun])
  case call aaa =>
    by_cases hsp : s.sp = 15
    · rw [exec_call_of_full aaa hsp] at h
      cases h
      exact ⟨_, .call aaa hsp, rfl⟩
    · rw [exec_call_of_room aaa hsp] at h
      cases h
      exact absurd ht (by simp [hrun])
  case drw x y n =>
    obtain ⟨hout, rfl⟩ := rangeChecked_halts ((State.draw_halted ..).trans hrun) h ht
    exact ⟨_, .drw x y n hout, rfl⟩
  case ldB x =>
    obtain ⟨hout, rfl⟩ := rangeChecked_halts (u := s.storeBytes _ _) hrun h ht
    exact ⟨_, .ldB x hout, rfl⟩
  case ldMemVx x =>
    obtain ⟨hout, rfl⟩ := rangeChecked_halts (u := s.storeBytes _ _) hrun h ht
    exact ⟨_, .ldMemVx x hout, rfl⟩
  case ldVxMem x =>
    obtain ⟨hout, rfl⟩ := rangeChecked_halts ((State.loadRegs_halted ..).trans hrun) h ht
    exact ⟨_, .ldVxMem x hout, rfl⟩
  all_goals
    have hkeep := exec_keeps_halted h (by simp [mayWrite])
    rw [hrun, ht] at hkeep
    cases hkeep

/-- Settles O19: what halts a running core is a raise, which changes two fields, and the raised fault is one of six; the range
checks look at the highest effective address. -/
theorem instructionFaultsArePrecise : Obligations.InstructionFaultsArePrecise := by
  refine ⟨fun _ _ _ => ⟨rfl, rfl, rfl, rfl⟩, fun i s t hrun h ht => ?_⟩
  obtain ⟨f, hf, rfl⟩ := exec_halts hrun h ht
  refine ⟨sameExcept_raise s f, ?_⟩
  cases hf with
  | ret hsp => exact .inl ⟨rfl, hsp, rfl⟩
  | call aaa hsp => exact .inr (.inl ⟨aaa, rfl, hsp, rfl⟩)
  | drw x y n hout =>
    rw [inRange_iff_highest, State.base] at hout
    exact .inr (.inr ⟨rfl, .inl ⟨x, y, n, rfl, by omega, by omega⟩⟩)
  | ldB x hout =>
    rw [inRange_iff_highest, State.base] at hout
    exact .inr (.inr ⟨rfl, .inr (.inl ⟨x, rfl, by omega⟩)⟩)
  | ldMemVx x hout =>
    rw [inRange_blockLength, not_le] at hout
    exact .inr (.inr ⟨rfl, .inr (.inr (.inl ⟨x, rfl, hout⟩))⟩)
  | ldVxMem x hout =>
    rw [inRange_blockLength, not_le] at hout
    exact .inr (.inr ⟨rfl, .inr (.inr (.inr ⟨x, rfl, hout⟩))⟩)

/-! ## The host's turn (R293, U12, U13) -/

theorem load_ne_fault (image : List Byte) (s : State) (f : Fault) : State.load image s ≠ .fault f := by
  unfold State.load
  split
  · nofun
  · split <;> nofun

theorem hostMoves_ne_fault (ms : List HostMove) (s : State) (f : Fault) : hostMoves ms s ≠ .fault f := by
  induction ms generalizing s with
  | nil => nofun
  | cons m ms ih =>
    cases m with
    | reset => exact ih s.hostReset
    | push e => exact ih (s.pushRaw e)
    | tick b => nofun
    | load image =>
      rw [hostMoves]
      split
      · next t _ => exact ih t
      · next g hg => exact absurd hg (load_ne_fault image s g)
      · nofun

/-- No move of the host writes the parameters (R21). -/
theorem hostTurn_params {s t : State} (h : s.hostTurn = .next t) : t.params = s.params := by
  refine hostMoves_induction (P := fun s t => t.params = s.params) ?trans ?reset ?load ?push ?timers ?rest h
  case trans => exact fun _ _ _ hst htu => htu.trans hst
  case load =>
    intro image s t hload
    obtain ⟨-, -, rfl⟩ := State.load_next hload
    rfl
  case reset | push | timers | rest => intros; rfl

/-- Only a load among the announced moves can be refused. -/
theorem hostTurn_answers {s : State} (h : ∀ image : List Byte, HostMove.load image ∉ s.host) : ∃ t, s.hostTurn = .next t := by
  cases hturn : s.hostTurn with
  | next t => exact ⟨t, rfl⟩
  | fault f => exact absurd hturn (hostMoves_ne_fault s.host s f)
  | refused r =>
    obtain ⟨pre, post, image, -, hmoves, -⟩ := hostMoves_refused hturn
    exact absurd (by simp [hmoves]) (h image)

/-! ## A key check with room has a result (R231, U8) -/

theorem drainRaw_of_room {cap : Option Nat} {raw : List RawEvent} {uq : List Nibble} (e : Byte) (ef : Bool)
    (hroom : roomFor cap uq.length (keysOf raw).length) : ∃ c, drainRaw cap e raw uq ef = some c := by
  induction raw generalizing uq ef with
  | nil => exact ⟨_, rfl⟩
  | cons ev raw ih =>
    cases ev with
    | exit => exact ih true hroom
    | other => exact ih ef hroom
    | key k =>
      obtain ⟨hfree, hroom⟩ := roomFor_succ_iff.1 hroom
      rw [drainRaw, hfree, if_neg Bool.false_ne_true]
      split
      · exact ⟨_, rfl⟩
      · exact ih ef (by simpa using hroom)

theorem not_roomFor_of_no_result {cap : Option Nat} {e : Byte} {s : State} (h : checkIfPressed cap e s = none) :
    ¬ roomFor cap s.uq.length (keysOf s.raw).length := by
  intro hroom
  obtain ⟨c, hc⟩ := drainRaw_of_room e s.exitFlag hroom
  unfold checkIfPressed at h
  split at h
  · cases h
  · rw [hc] at h; cases h

/-! ## The outcomes of a step -/

/-- After the host's turn `u` the tick meets an SKP or SKNP whose check has no result. -/
def keyCheckFails (u : State) (x : Reg) : Prop :=
  fetches u ∧ (decodeWord u.fetchWord = .ok (.skp x) ∨ decodeWord u.fetchWord = .ok (.sknp x)) ∧
  checkIfPressed u.params.uqCap (u.reg x) u = none

/-- What a step can answer: a next state, the refusal of its host's turn, or that of a key check without a result. -/
theorem step_outcome (s : State) :
    (∃ t, step s = .next t) ∨
    (∃ r, s.hostTurn = .refused r ∧ step s = .refused r) ∨
    (∃ u x, s.hostTurn = .next u ∧ keyCheckFails u x ∧ u.params.uqCap ≠ none ∧ step s = .refused .queueFull) := by
  cases hturn : s.hostTurn with
  | fault f => exact absurd hturn (hostMoves_ne_fault s.host s f)
  | refused r => exact .inr (.inl ⟨r, rfl, by rw [step, hturn]⟩)
  | next u =>
    rw [step_of_hostTurn hturn]
    rcases tick_outcome u with hnext | ⟨x, hrun, hpc, hkey, hcheck, hcap, htick⟩
    · exact .inl hnext
    · exact .inr (.inr ⟨u, x, rfl, ⟨⟨hrun, hpc⟩, hkey, hcheck⟩, hcap, htick⟩)

/-- Settles O13: the three outcomes of a step, the second excluded by a host without a load and the third by an unbounded
queue; a check has no result only for want of room. -/
theorem onlyLoadsAndAFullQueueAreRefused : Obligations.OnlyLoadsAndAFullQueueAreRefused := by
  refine ⟨?answers, ?noFault, ?refused⟩
  case answers =>
    intro s hcap hloads
    obtain ⟨u, hu⟩ := hostTurn_answers hloads
    rcases step_outcome s with hnext | ⟨r, hr, -⟩ | ⟨u, x, hturn, -, hfinite, -⟩
    · exact hnext
    · rw [hu] at hr; cases hr
    · exact absurd ((congrArg Params.uqCap (hostTurn_params hturn)).trans hcap) hfinite
  case noFault =>
    intro s f
    rcases step_outcome s with ⟨t, h⟩ | ⟨r, -, h⟩ | ⟨u, x, -, -, -, h⟩ <;> rw [h] <;> nofun
  case refused =>
    intro s r hstep
    rcases step_outcome s with ⟨t, h⟩ | ⟨q, hturn, h⟩ | ⟨u, x, hturn, ⟨hfetch, hkey, hcheck⟩, -, h⟩
    · rw [h] at hstep; cases hstep
    · rw [h] at hstep
      cases hstep
      exact .inl (hostMoves_refused hturn)
    · rw [h] at hstep
      cases hstep
      exact .inr ⟨u, x, rfl, hturn, hfetch, hkey, hcheck, not_roomFor_of_no_result hcheck⟩

end Sys2Proof.Safety
end

section
/-!
PROOFS. The host's load (R293, D22): what it copies, what it leaves, and the two refusals.
-/

namespace Sys2Proof.Safety

open Sys2Proof.Machine

/-- A load out of its place is refused, whatever the image (U13). -/
theorem load_refused_closed {s : State} (image : List Byte) (hclosed : s.loadOpen = false) :
    State.load image s = .refused .loadNotOpen := by
  rw [State.load, hclosed, if_pos (by decide)]

/-- A load in its place is refused if the image does not fit above 0x200 (U12). -/
theorem load_refused_tooLong {s : State} {image : List Byte} (hopen : s.loadOpen = true)
    (hlen : Config.progMax < image.length) : State.load image s = .refused .imageTooLong := by
  rw [State.load, hopen, if_neg (by decide), if_pos hlen]

/-- A load that answers changes no byte outside the image's range and no part but memory and the load mark. -/
theorem load_keepsFrame {image : List Byte} {s t : State} (h : State.load image s = .next t) :
    memExcept Config.progBase image.length s t ∧ sameExcept [.mem, .loadOpen] s t := by
  obtain ⟨-, -, rfl⟩ := State.load_next h
  have hstore := sameExcept_storeBytes s Config.progBase image
  have hclose := sameExcept_closeLoad (s.storeBytes Config.progBase image)
  refine ⟨fun b hb => ?_, (hstore.mono (by simp)).trans (hclose.mono (by simp))⟩
  exact (hclose .mem (by simp) b).trans (memExcept_storeBytes s _ image b hb)

/-- Settles O16: a load in its place that fits is one store at 0x200 and the closing of `load`; the two refusals are its
guards, in their order. -/
theorem loadCopiesTheImage : Obligations.LoadCopiesTheImage := by
  refine ⟨?copies, fun s image hclosed => load_refused_closed image hclosed,
    fun s image hopen hlen => load_refused_tooLong hopen hlen⟩
  intro s image hm hopen hlen
  have hload := load_answers hopen hlen
  obtain ⟨hother, hframe⟩ := load_keepsFrame hload
  exact ⟨_, hload, fun k hk => read_storeImage hm hlen hk, hother, rfl, hframe⟩

end Sys2Proof.Safety
end
